-- ==== Sys2Proof/Word.lean ====
section
/-! DEFINITION. The widths of CORE's values (spec/00_scope.md R5, R9: every quantity is unsigned). -/

namespace Sys2Proof

/-- One byte of the input sequence, one input lane (R9, R12). -/
abbrev Byte := BitVec 8

/-- `in_len`, `LEN_W` = 3 bits (R5, R12). -/
abbrev LenField := BitVec 3

/-- `out_cp`, `CP_W` = 32 bits (R5, R15). -/
abbrev CodePoint := BitVec 32

/-- `out_len`, `OLEN_W` = 8 bits (R5, R16). -/
abbrev OutLen := BitVec 8

/-- `out_err`, `ERR_W` = 3 bits (R5, R14). -/
abbrev ErrCode := BitVec 3

/-- The packed request `REQ[42:0]` (R32). -/
abbrev Req := BitVec 43

/-- The packed response `RESP[42:0]` (R33). -/
abbrev Resp := BitVec 43

end Sys2Proof
end

