-- ==== Sys2Proof/Syntax.lean ====
section
/-! DEFINITION. The decode classes of CORE: one constructor per row of spec/opcode_table.json. CORE has no instruction
set; the request word `REQ` (R32) plays the instruction's part, and its length field and lead byte choose the class
(spec/30_encoding.md R34, R35, R40). An `Instr` is the whole snapshot of one request (R31; log 9). -/

namespace Sys2Proof

/-- The lanes after the lead byte, `in_byte[1]` to `in_byte[4]` (R12). -/
structure Tail where
  b1 : Byte
  b2 : Byte
  b3 : Byte
  b4 : Byte
deriving DecidableEq, Repr

/-- One request, sorted by class. `len` is `in_len`; `p` is the variable part of the lead byte (the `x` bits of its
pattern, R34 and R35); `t` holds the other lanes. -/
inductive Instr where
  /-- EMPTY: `in_len == 0`, whatever the lanes hold (R40, R46). -/
  | empty (b0 : Byte) (t : Tail)
  /-- DEC1: lead byte `0xxxxxxx` (R47). -/
  | dec1 (len : LenField) (p : BitVec 7) (t : Tail)
  /-- BADLEAD_CONT: lead byte `10xxxxxx` (R51). -/
  | badleadCont (len : LenField) (p : BitVec 6) (t : Tail)
  /-- DEC2: lead byte `110xxxxx` (R48). -/
  | dec2 (len : LenField) (p : BitVec 5) (t : Tail)
  /-- DEC3: lead byte `1110xxxx` (R49). -/
  | dec3 (len : LenField) (p : BitVec 4) (t : Tail)
  /-- DEC4: lead byte `11110xxx` (R50). -/
  | dec4 (len : LenField) (p : BitVec 3) (t : Tail)
  /-- BADLEAD_HIGH: lead byte `11111xxx` (R52). -/
  | badleadHigh (len : LenField) (p : BitVec 3) (t : Tail)
deriving DecidableEq, Repr

end Sys2Proof
end

