-- ==== Sys2Proof/WellFormed.lean ====
section
/-! DEFINITION. Which `Instr` terms are requests: a lead-byte class has `in_len != 0` (spec/30_encoding.md R40 and the
`condition` of the rows of spec/opcode_table.json: EMPTY has priority over every lead-byte row). -/

namespace Sys2Proof

/-- The lead-byte map applies only when `in_len >= 1` (R40). -/
def Instr.wellFormed : Instr → Bool
  | .empty _ _ => true
  | .dec1 len _ _ => len != 0
  | .badleadCont len _ _ => len != 0
  | .dec2 len _ _ => len != 0
  | .dec3 len _ _ => len != 0
  | .dec4 len _ _ => len != 0
  | .badleadHigh len _ _ => len != 0

end Sys2Proof
end

