-- ==== Sys2Proof/Decode.lean ====
section
/-! DEFINITION. From a request word to its class and back (spec/30_encoding.md R32, R34, R35, R40, R41 and
spec/opcode_table.json). Every 43-bit word is a request of exactly one class (R41): decoding is total on `Req`, and
only a number that is no 43-bit word is rejected, by name. -/

namespace Sys2Proof

/-! ### The request format (R32) -/

/-- `REQ` = {`in_len`, b4, b3, b2, b1, b0} with b0 in bits [7:0] (R32). -/
def packRequest (len : LenField) (b0 : Byte) (t : Tail) : Req :=
  len ++ t.b4 ++ t.b3 ++ t.b2 ++ t.b1 ++ b0

/-- `REQ[42:40]`, the length field. -/
def reqLen (r : Req) : LenField := r.extractLsb' 40 3

/-- `REQ[8k+7:8k]`, lane k. -/
def reqByte (k : Nat) (r : Req) : Byte := r.extractLsb' (8 * k) 8

/-- Lanes 1 to 4 of a request. -/
def reqTail (r : Req) : Tail := ⟨reqByte 1 r, reqByte 2 r, reqByte 3 r, reqByte 4 r⟩

/-! ### Decoding (R35, R40) -/

/-- The class of a request: EMPTY first (R40), then the lead-byte rows, each by the mask and match of its row. -/
def decodeReq (r : Req) : Instr :=
  let len := reqLen r
  let b0 := reqByte 0 r
  let t := reqTail r
  if len = 0 then .empty b0 t
  else if b0 &&& 0x80 = 0x00 then .dec1 len (b0.extractLsb' 0 7) t
  else if b0 &&& 0xC0 = 0x80 then .badleadCont len (b0.extractLsb' 0 6) t
  else if b0 &&& 0xE0 = 0xC0 then .dec2 len (b0.extractLsb' 0 5) t
  else if b0 &&& 0xF0 = 0xE0 then .dec3 len (b0.extractLsb' 0 4) t
  else if b0 &&& 0xF8 = 0xF0 then .dec4 len (b0.extractLsb' 0 3) t
  else .badleadHigh len (b0.extractLsb' 0 3) t

/-- Why a number is rejected before any class is looked for. -/
inductive DecodeReject where
  /-- The number has a bit above `REQ[42]`, so it is no request word (R32; log 16). Raised by `decodeWord` only; safe: no
  request is rejected. -/
  | widerThanRequest
deriving DecidableEq, Repr

/-- Decoding on any number. The rejection of a number that is no request word is the model's choice (log 16). -/
def decodeWord (w : Nat) : Except DecodeReject Instr :=
  if w < 2 ^ 43 then .ok (decodeReq (BitVec.ofNat 43 w)) else .error .widerThanRequest

/-! ### Encoding (R32, R34, R35) -/

/-- The length field of a class: EMPTY is `in_len == 0` (R40). -/
def Instr.lenField : Instr → LenField
  | .empty _ _ => 0
  | .dec1 len _ _ => len
  | .badleadCont len _ _ => len
  | .dec2 len _ _ => len
  | .dec3 len _ _ => len
  | .dec4 len _ _ => len
  | .badleadHigh len _ _ => len

/-- The lead byte: the fixed bits of the class's pattern, then its `x` bits (R34, R35). -/
def Instr.leadByte : Instr → Byte
  | .empty b0 _ => b0
  | .dec1 _ p _ => 0b0#1 ++ p
  | .badleadCont _ p _ => 0b10#2 ++ p
  | .dec2 _ p _ => 0b110#3 ++ p
  | .dec3 _ p _ => 0b1110#4 ++ p
  | .dec4 _ p _ => 0b11110#5 ++ p
  | .badleadHigh _ p _ => 0b11111#5 ++ p

/-- The lanes after the lead byte. -/
def Instr.tail : Instr → Tail
  | .empty _ t => t
  | .dec1 _ _ t => t
  | .badleadCont _ _ t => t
  | .dec2 _ _ t => t
  | .dec3 _ _ t => t
  | .dec4 _ _ t => t
  | .badleadHigh _ _ t => t

/-- The request word of an instruction. -/
def encode (i : Instr) : Req := packRequest i.lenField i.leadByte i.tail

/-! ### The opcode table -/

/-- The `mask` of an instruction's row in spec/opcode_table.json. -/
def Instr.rowMask : Instr → Req
  | .empty _ _ => 0x70000000000
  | .dec1 _ _ _ => 0x00000000080
  | .badleadCont _ _ _ => 0x000000000C0
  | .dec2 _ _ _ => 0x000000000E0
  | .dec3 _ _ _ => 0x000000000F0
  | .dec4 _ _ _ => 0x000000000F8
  | .badleadHigh _ _ _ => 0x000000000F8

/-- The `match` of an instruction's row in spec/opcode_table.json. -/
def Instr.rowMatch : Instr → Req
  | .empty _ _ => 0x00000000000
  | .dec1 _ _ _ => 0x00000000000
  | .badleadCont _ _ _ => 0x00000000080
  | .dec2 _ _ _ => 0x000000000C0
  | .dec3 _ _ _ => 0x000000000E0
  | .dec4 _ _ _ => 0x000000000F0
  | .badleadHigh _ _ _ => 0x000000000F8

/-- The request that a table word of `nbits` bits stands for. A word that reaches the length field (`nbits` > 40) is
`REQ` itself. A shorter word gives lane bytes only: it is the sequence of its bytes, first byte lowest, and `in_len`
is how many there are (R12), since every lead-byte row has the condition `REQ[42:40] != 0` (DESIGN CHOICE, log 10).
The lanes beyond those bytes are presented as 0x00, also the model's choice (log 10): the spec leaves a lane at index
`in_len` or above any value, and no output depends on it (R19, decision D3). -/
def tableRequest (nbits w : Nat) : Option Req :=
  if 40 < nbits then
    if w < 2 ^ 43 then some (BitVec.ofNat 43 w) else none
  else if w < 2 ^ nbits then some (BitVec.ofNat 43 ((nbits + 7) / 8 * 2 ^ 40 + w))
  else none

/-- The instruction the decoder reads from a table word; none where the decoder refuses. -/
def decodeTableWord (nbits w : Nat) : Option Instr :=
  (tableRequest nbits w).bind fun r => (decodeWord r.toNat).toOption

end Sys2Proof
end

