-- ==== Sys2Proof/Config.lean ====
section
/-! DEFINITION. The named parameters of spec/00_scope.md R5 that a model may take as an argument. This hardware's
values are `Sys2Proof.Machine.hardware` (Machine/Ops.lean); the widths and `WINDOW` = 5 are the types of Word.lean and State. `T_PROP` is left out: no rule depends on it (R91, R93;
log 8). No value is left free: the spec leaves no result open (spec/93_implementation_defined.md section 1). -/

namespace Sys2Proof

/-- The two boolean parameters of R5. -/
structure Params where
  /-- `P_TRAIL_ASCII`: the trailing check also applies to one-byte sequences (decision D8, log 4). -/
  trailAscii : Bool
  /-- `P_TRAIL_BEFORE_RANGE`: the trailing check precedes the surrogate and too-large checks (decision D6, log 5). -/
  trailBeforeRange : Bool
deriving DecidableEq, Repr

end Sys2Proof
end

