-- ==== Sys2Proof/Machine/State.lean ====
section
/-! DEFINITION. The machine's state and the reasons a step could stop. CORE retains nothing between DECODEs
(spec/10_state.md R11): State is what its interface carries, every field of the inventory R21 and no other (log 1). -/

namespace Sys2Proof.Machine

/-- The inputs as the caller drives them and the outputs as the last DECODE drove them (R12 to R18, R21). CORE never
drives an input (R17) and no output is read by a later DECODE (R19). The outputs of a state whose inputs have changed
since its last step are no outcome of CORE (R91; log 1, log 8). -/
structure State where
  /-- `in_byte[0..4]` (R12). A lane at index >= `in_len` is don't-care (R19). -/
  inByte : Vector Byte 5
  /-- `in_len` = min(length, 7) (R12). -/
  inLen : LenField
  /-- `cfg_strict_trailing`, a static tie-off (R13). -/
  cfgStrictTrailing : Bool
  /-- `out_err` (R14). -/
  outErr : ErrCode
  /-- `out_cp` (R15). -/
  outCp : CodePoint
  /-- `out_len` (R16). -/
  outLen : OutLen
  /-- `out_ok` (R18). -/
  outOk : Bool
deriving DecidableEq, Repr

/-- No fault exists: every DECODE completes, and an error is a value driven on `out_err` (R53, R82, R85;
spec/93_implementation_defined.md section 1, "No behaviour is `stuck`"). Raised by nobody; safe (log 12). -/
inductive Fault where
deriving DecidableEq, Repr

/-- Reasons a step has no meaning. -/
inductive Refusal where
  /-- Raised by an arm of `exec` whose instruction has no meaning yet; safe. No arm raises it: every class has its
  meaning. -/
  | notModelled (mnemonic : String)
deriving DecidableEq, Repr

/-- The machine right after reset. `cfg_strict_trailing` is tied to 1 (R13). The inputs are the caller's (R21): here no
byte and zero lanes (DESIGN CHOICE, log 2). The outputs are the function of those inputs, as at all times (R20): the
outcome of EMPTY (R46; DEDUCED, log 2). -/
def State.reset : State where
  inByte := #v[0, 0, 0, 0, 0]
  inLen := 0
  cfgStrictTrailing := true
  outErr := 1
  outCp := 0
  outLen := 0
  outOk := false

end Sys2Proof.Machine
end

