-- ==== Sys2Proof/Machine/Flags.lean ====
section
/-! DEFINITION. The outcome kinds, their codes, and the outcome of one DECODE (spec/10_state.md R14,
spec/60_exceptions.md R75 to R81, spec/40_decoder.md R54). CORE's only flags are `out_err` and `out_ok`. -/

namespace Sys2Proof.Machine

/-- The seven error kinds (R75 to R81). An error records nothing but its kind. -/
inductive ErrorKind where
  | emptyInput
  | invalidLeadByte
  | invalidLength
  | invalidContinuationByte
  | overlong
  | surrogateHalf
  | tooLarge
deriving DecidableEq, Repr

/-- The code of a kind on `out_err` (R14; the numbers are the spec's decision D5). -/
def errCode : ErrorKind → ErrCode
  | .emptyInput => 1
  | .invalidLeadByte => 2
  | .invalidLength => 3
  | .invalidContinuationByte => 4
  | .overlong => 5
  | .surrogateHalf => 6
  | .tooLarge => 7

/-- How one evaluation ends: `return ok(cp, n)` or `raise E` (R8, R95). -/
inductive DecodeResult where
  | ok (cp : CodePoint) (n : OutLen)
  | raise (e : ErrorKind)
deriving DecidableEq, Repr

/-- `out_err` of a result (R54). -/
def DecodeResult.err : DecodeResult → ErrCode
  | .ok _ _ => 0
  | .raise e => errCode e

/-- `out_cp` of a result: 0 on failure (R15, R54). -/
def DecodeResult.cp : DecodeResult → CodePoint
  | .ok cp _ => cp
  | .raise _ => 0

/-- `out_len` of a result: 0 on failure (R16, R54). -/
def DecodeResult.len : DecodeResult → OutLen
  | .ok _ n => n
  | .raise _ => 0

/-- `out_ok` of a result: 1 exactly when `out_err == 0` (R18). -/
def DecodeResult.isOk (d : DecodeResult) : Bool := d.err == 0

end Sys2Proof.Machine
end

