-- ==== Sys2Proof/Machine/Operands.lean ====
section
/-! DEFINITION. Payload fields and the code point assembler (spec/30_encoding.md R37, R38; spec/42_codepoint_assembler.md
R63 to R67). `assemble1` to `assemble4` concatenate fields, as the class rules R47 to R50 write them; `assembleSeq` is
the general shift-and-or formula R63. -/

namespace Sys2Proof.Machine

/-- The payload of a continuation byte, its low 6 bits (R37). -/
def contPayload (c : Byte) : BitVec 6 := c.extractLsb' 0 6

/-- `zext_32(b0)` for n = 1 (R64). -/
def assemble1 (b0 : Byte) : CodePoint := b0.zeroExtend 32

/-- `zext_32({b0[4:0], b1[5:0]})` (R48, R65). -/
def assemble2 (p : BitVec 5) (b1 : Byte) : CodePoint := (p ++ contPayload b1).zeroExtend 32

/-- `zext_32({b0[3:0], b1[5:0], b2[5:0]})` (R49, R66). -/
def assemble3 (p : BitVec 4) (b1 b2 : Byte) : CodePoint :=
  (p ++ contPayload b1 ++ contPayload b2).zeroExtend 32

/-- `zext_32({b0[2:0], b1[5:0], b2[5:0], b3[5:0]})` (R50, R67). -/
def assemble4 (p : BitVec 3) (b1 b2 b3 : Byte) : CodePoint :=
  (p ++ contPayload b1 ++ contPayload b2 ++ contPayload b3).zeroExtend 32

/-- The payload mask of a lead byte that declares n bytes (R37, R64 to R67). -/
def leadMask : Nat → Byte
  | 1 => 0x7F
  | 2 => 0x1F
  | 3 => 0x0F
  | _ => 0x07

/-- `(c_1 << 6*(n-2)) | ... | c_(n-1)`, the continuation part of R63. -/
def assembleConts : List Byte → CodePoint
  | [] => 0
  | c :: cs => ((c &&& 0x3F).zeroExtend 32 <<< (6 * cs.length)) ||| assembleConts cs

/-- `(p << 6*(n-1)) | (c_1 << 6*(n-2)) | ... | c_(n-1)` with p the payload of b0 (R63). -/
def assembleSeq (b0 : Byte) (conts : List Byte) : CodePoint :=
  ((b0 &&& leadMask (conts.length + 1)).zeroExtend 32 <<< (6 * conts.length)) ||| assembleConts conts

end Sys2Proof.Machine
end

