-- ==== Sys2Proof/Machine/Ops.lean ====
section
/-! DEFINITION. The named operations: this hardware's parameters, the byte pattern validator
(spec/41_byte_pattern_validator.md R56 to R60), the value checks (spec/42_codepoint_assembler.md R68 to R72), driving an
outcome (spec/40_decoder.md R54), and reading and presenting the input window (spec/10_state.md R12). CORE has no trap:
its one "exception entry" is `raise`, a failure outcome driven on the outputs (R82, R85). -/

namespace Sys2Proof.Machine

/-- This hardware: `P_TRAIL_ASCII` = 0 and `P_TRAIL_BEFORE_RANGE` = 1 (R5; decisions D8 and D6, logs 4 and 5). -/
def hardware : Params where
  trailAscii := false
  trailBeforeRange := true

/-- `MAX_CP` (R5, R72). -/
def maxCp : CodePoint := 0x10FFFF

/-- `SURR_LO` (R5, R71). -/
def surrLo : CodePoint := 0xD800

/-- `SURR_HI` (R5, R71). -/
def surrHi : CodePoint := 0xDFFF

/-! ### Byte pattern validator -/

/-- The continuation-byte test (R36, R56). -/
def isCont (c : Byte) : Bool := c &&& 0xC0 == 0x80

/-- The lead-byte classifier: the declared length n, or none for BAD (R34, R57). -/
def leadClass (b0 : Byte) : Option Nat :=
  if b0 < 0x80 then some 1
  else if b0 &&& 0xE0 = 0xC0 then some 2
  else if b0 &&& 0xF0 = 0xE0 then some 3
  else if b0 &&& 0xF8 = 0xF0 then some 4
  else none

/-- The available-length test: `in_len >= n` (R58). It reads no lane. -/
def lengthCheck (len : LenField) (n : Nat) : Bool := decide (n ≤ len.toNat)

/-- The continuation test on `b[1..n-1]` (R59). -/
def contCheck (conts : List Byte) : Bool := conts.all isCont

/-- The stray-continuation test; `bn` is lane n, which matters only when `in_len >= n + 1` (R60). -/
def trailCheck (strict : Bool) (len : LenField) (n : Nat) (bn : Byte) : Bool :=
  strict && decide (n + 1 ≤ len.toNat) && isCont bn

/-! ### Value checks -/

/-- The overlong check for n = 2, 3 and 4 (R68, R69, R70; the threshold for n = 3 as 90_conflicts.md C2 settles it). -/
def overlong (n : Nat) (b0 b1 : Byte) (cp : CodePoint) : Bool :=
  match n with
  | 2 => decide (cp < 0x80)
  | 3 => b0 == 0xE0 && decide (b1 < 0xA0)
  | 4 => b0 == 0xF0 && decide (b1 < 0x90)
  | _ => false

/-- The surrogate check (R71). -/
def surrogate (cp : CodePoint) : Bool := decide (surrLo ≤ cp) && decide (cp ≤ surrHi)

/-- The too-large check (R72). -/
def tooLarge (cp : CodePoint) : Bool := decide (maxCp < cp)

/-! ### Outputs -/

/-- Drive an outcome on the four output fields; nothing else changes (R17, R54). -/
def State.drive (s : State) (d : DecodeResult) : State :=
  { s with outErr := d.err, outCp := d.cp, outLen := d.len, outOk := d.isOk }

/-- The packed response `RESP` (R33). -/
def State.response (s : State) : Resp := s.outErr ++ s.outLen ++ s.outCp

/-! ### Inputs -/

/-- Lanes 1 to 4 as the pins carry them. -/
def State.tail (s : State) : Tail := ⟨s.inByte[1], s.inByte[2], s.inByte[3], s.inByte[4]⟩

/-- The request word on the pins: the snapshot one DECODE evaluates (R31, R32). -/
def State.request (s : State) : Req := packRequest s.inLen s.inByte[0] s.tail

/-- The caller drives the input fields (R90, R94). -/
def State.present (s : State) (len : LenField) (b0 : Byte) (t : Tail) : State :=
  { s with inByte := #v[b0, t.b1, t.b2, t.b3, t.b4], inLen := len }

/-- The caller drives a packed request (R32). -/
def State.presentRequest (s : State) (r : Req) : State := s.present (reqLen r) (reqByte 0 r) (reqTail r)

/-- The caller drives the request of a table word; the state is unchanged where the word is none (log 10). -/
def State.presentTableWord (s : State) (nbits w : Nat) : State :=
  match tableRequest nbits w with
  | some r => s.presentRequest r
  | none => s

/-- The bytes of the input sequence the window shows: the lanes at index < `in_len` (R12, R19). -/
def State.shownBytes (s : State) : List Byte := s.inByte.toList.take s.inLen.toNat

/-- The window carries the byte sequence `bs`: `in_len` = min(len, 7) and lane i = b[i] for i < min(len, 5); the other
lanes hold any value (R12, R24, R90). -/
def Presents (s : State) (bs : List Byte) : Prop :=
  s.inLen.toNat = min bs.length 7 ∧ ∀ (i : Nat) (_ : i < 5) (_ : i < bs.length), s.inByte[i] = bs[i]

end Sys2Proof.Machine
end

