-- ==== Sys2Proof/Machine/MultiByte.lean ====
section
/-! DEFINITION. The multi-byte classes DEC2, DEC3 and DEC4 (spec/40_decoder.md R48, R49, R50), each the class's own
pseudocode, its checks in the order of R45. The check that `P_TRAIL_BEFORE_RANGE` moves stands at both places, as in
R45; on this hardware the earlier one acts (decision D6, log 5). -/

namespace Sys2Proof.Machine

/-- DEC2 (R48). R71 and R72 cannot fire: the value is at most 0x7FF. -/
def dec2 (strict : Bool) (len : LenField) (p : BitVec 5) (t : Tail) : DecodeResult :=
  let cp := assemble2 p t.b1
  if !lengthCheck len 2 then .raise .invalidLength
  else if !contCheck [t.b1] then .raise .invalidContinuationByte
  else if overlong 2 (0b110#3 ++ p) t.b1 cp then .raise .overlong
  else if trailCheck strict len 2 t.b2 then .raise .invalidLength
  else .ok cp 2

/-- DEC3 (R49). R72 cannot fire: the value is at most 0xFFFF. -/
def dec3 (P : Params) (strict : Bool) (len : LenField) (p : BitVec 4) (t : Tail) : DecodeResult :=
  let cp := assemble3 p t.b1 t.b2
  let stray := trailCheck strict len 3 t.b3
  if !lengthCheck len 3 then .raise .invalidLength
  else if !contCheck [t.b1, t.b2] then .raise .invalidContinuationByte
  else if overlong 3 (0b1110#4 ++ p) t.b1 cp then .raise .overlong
  else if P.trailBeforeRange && stray then .raise .invalidLength
  else if surrogate cp then .raise .surrogateHalf
  else if !P.trailBeforeRange && stray then .raise .invalidLength
  else .ok cp 3

/-- DEC4 (R50). -/
def dec4 (P : Params) (strict : Bool) (len : LenField) (p : BitVec 3) (t : Tail) : DecodeResult :=
  let cp := assemble4 p t.b1 t.b2 t.b3
  let stray := trailCheck strict len 4 t.b4
  if !lengthCheck len 4 then .raise .invalidLength
  else if !contCheck [t.b1, t.b2, t.b3] then .raise .invalidContinuationByte
  else if overlong 4 (0b11110#5 ++ p) t.b1 cp then .raise .overlong
  else if P.trailBeforeRange && stray then .raise .invalidLength
  else if surrogate cp then .raise .surrogateHalf
  else if tooLarge cp then .raise .tooLarge
  else if !P.trailBeforeRange && stray then .raise .invalidLength
  else .ok cp 4

/-- DEC2 (R48). -/
def execDec2 (len : LenField) (p : BitVec 5) (t : Tail) (s : State) : Host.Outcome State Fault Refusal :=
  .next (s.drive (dec2 s.cfgStrictTrailing len p t))

/-- DEC3 (R49). -/
def execDec3 (len : LenField) (p : BitVec 4) (t : Tail) (s : State) : Host.Outcome State Fault Refusal :=
  .next (s.drive (dec3 hardware s.cfgStrictTrailing len p t))

/-- DEC4 (R50). -/
def execDec4 (len : LenField) (p : BitVec 3) (t : Tail) (s : State) : Host.Outcome State Fault Refusal :=
  .next (s.drive (dec4 hardware s.cfgStrictTrailing len p t))

end Sys2Proof.Machine
end

