-- ==== Sys2Proof/Machine/SingleByte.lean ====
section
/-! DEFINITION. The classes that need no byte after the lead byte: EMPTY, DEC1, BADLEAD_CONT and BADLEAD_HIGH
(spec/40_decoder.md R46, R47, R51, R52). -/

namespace Sys2Proof.Machine

/-- EMPTY raises `EmptyInput`, always (R46). -/
def empty : DecodeResult := .raise .emptyInput

/-- DEC1 returns the lead byte itself (R47); with `P_TRAIL_ASCII` = 1, not this hardware, a stray continuation byte
fails first (R45, R60; log 4). -/
def dec1 (P : Params) (strict : Bool) (len : LenField) (p : BitVec 7) (t : Tail) : DecodeResult :=
  if P.trailAscii && trailCheck strict len 1 t.b1 then .raise .invalidLength
  else .ok (assemble1 (0b0#1 ++ p)) 1

/-- BADLEAD_CONT raises `InvalidLeadByte`, always (R51). -/
def badleadCont : DecodeResult := .raise .invalidLeadByte

/-- BADLEAD_HIGH raises `InvalidLeadByte`, always (R52). -/
def badleadHigh : DecodeResult := .raise .invalidLeadByte

/-- EMPTY: no lane is read (R40, R46). -/
def execEmpty (_b0 : Byte) (_t : Tail) (s : State) : Host.Outcome State Fault Refusal :=
  .next (s.drive empty)

/-- DEC1 (R47). -/
def execDec1 (len : LenField) (p : BitVec 7) (t : Tail) (s : State) : Host.Outcome State Fault Refusal :=
  .next (s.drive (dec1 hardware s.cfgStrictTrailing len p t))

/-- BADLEAD_CONT: no byte after the lead byte is read (R51). -/
def execBadleadCont (_len : LenField) (_p : BitVec 6) (_t : Tail) (s : State) : Host.Outcome State Fault Refusal :=
  .next (s.drive badleadCont)

/-- BADLEAD_HIGH: no byte after the lead byte is read (R52). -/
def execBadleadHigh (_len : LenField) (_p : BitVec 3) (_t : Tail) (s : State) : Host.Outcome State Fault Refusal :=
  .next (s.drive badleadHigh)

end Sys2Proof.Machine
end

