-- ==== Sys2Proof/Machine/Dispatch.lean ====
section
/-! DEFINITION. One arm per decode class (spec/40_decoder.md R46 to R52). -/

namespace Sys2Proof.Machine

def exec (i : Instr) (s : State) : Host.Outcome State Fault Refusal :=
  match i with
  | .empty b0 t => Sys2Proof.Machine.execEmpty b0 t s
  | .dec1 len p t => Sys2Proof.Machine.execDec1 len p t s
  | .badleadCont len p t => Sys2Proof.Machine.execBadleadCont len p t s
  | .dec2 len p t => Sys2Proof.Machine.execDec2 len p t s
  | .dec3 len p t => Sys2Proof.Machine.execDec3 len p t s
  | .dec4 len p t => Sys2Proof.Machine.execDec4 len p t s
  | .badleadHigh len p t => Sys2Proof.Machine.execBadleadHigh len p t s

end Sys2Proof.Machine
end

