-- ==== Sys2Proof/Machine/Step.lean ====
section
/-! DEFINITION. One step: one DECODE, one evaluation of spec/40_decoder.md R45 on one snapshot of the inputs
(spec/70_reset_and_hazards.md R95, spec/20_memory.md R31). -/

namespace Sys2Proof.Machine

/-- Take the snapshot, find its class, evaluate it. There is no pc to advance (R17). -/
def step (s : State) : Host.Outcome State Fault Refusal := exec (decodeReq s.request) s

/-- The caller presents the request of a table word, so that the next step runs it (log 10, log 11). -/
def State.withFetchWord (s : State) (nbits w : Nat) : State := s.presentTableWord nbits w

end Sys2Proof.Machine
end

