-- ==== Sys2Proof/Machine/Sequence.lean ====
section
/-! DEFINITION. The document's own view, used by statements and never by `step`: `decode(bytes)` on a byte sequence of
any length (spec/20_memory.md R24, spec/40_decoder.md R45) and the minimal-length encoder of the round-trip law
(spec/40_decoder.md R55). -/

namespace Sys2Proof.Machine

/-- b[n] exists and is a continuation byte, under strict-trailing mode (R60); `rest` is b[1], b[2], .... -/
def strayAfter (strict : Bool) (n : Nat) (rest : List Byte) : Bool := strict && (rest[n - 1]?).any isCont

/-- The evaluation of R45, step by step, for any declared length and by the general formula R63. -/
def decodeBytes (P : Params) (strict : Bool) : List Byte → DecodeResult
  | [] => .raise .emptyInput
  | b0 :: rest =>
    match leadClass b0 with
    | none => .raise .invalidLeadByte
    | some n =>
      let stray := strayAfter strict n rest
      let conts := rest.take (n - 1)
      let cp := assembleSeq b0 conts
      if n = 1 then
        if P.trailAscii && stray then .raise .invalidLength else .ok cp 1
      else if rest.length + 1 < n then .raise .invalidLength
      else if !conts.all isCont then .raise .invalidContinuationByte
      else if conts.head?.any (fun b1 => overlong n b0 b1 cp) then .raise .overlong
      else if P.trailBeforeRange && stray then .raise .invalidLength
      else if surrogate cp then .raise .surrogateHalf
      else if tooLarge cp then .raise .tooLarge
      else if !P.trailBeforeRange && stray then .raise .invalidLength
      else .ok cp (BitVec.ofNat 8 n)

/-- A continuation byte with payload `v mod 64` (R36). -/
def contByte (v : Nat) : Byte := BitVec.ofNat 8 (0x80 + v % 64)

/-- The minimal-length encoding of a value: n is 1 below 0x80, 2 below 0x800, 3 below 0x10000 and 4 otherwise, the bytes
are the patterns of R34 and R36 filled as R38 lays the bits out (R55; DEDUCED, log 15). -/
def encodeMinimal (cp : CodePoint) : List Byte :=
  let v := cp.toNat
  if v < 0x80 then [BitVec.ofNat 8 v]
  else if v < 0x800 then [BitVec.ofNat 8 (0xC0 + v / 64), contByte v]
  else if v < 0x10000 then [BitVec.ofNat 8 (0xE0 + v / 4096), contByte (v / 64), contByte v]
  else [BitVec.ofNat 8 (0xF0 + v / 262144), contByte (v / 4096), contByte (v / 64), contByte v]

end Sys2Proof.Machine
end

