-- ==== Sys2Proof/Safety.lean ====
section
/-! DEFINITION. The words statements are made of: byte ranges and values as numbers, written from the ranges of the spec
and not from the model's masks; the states a DECODE may leave; and the invariant. -/

namespace Sys2Proof.Machine

/-! ### Bytes and values as numbers -/

/-- A continuation byte: 0x80 to 0xBF (spec/41_byte_pattern_validator.md R56). -/
abbrev IsContByte (c : Byte) : Prop := 0x80 ≤ c.toNat ∧ c.toNat ≤ 0xBF

/-- A byte is in the closed range [lo, hi]. -/
abbrev InRange (lo hi : Nat) (c : Byte) : Prop := lo ≤ c.toNat ∧ c.toNat ≤ hi

/-- The value of a two-byte sequence: payload fields as digits in base 64 (R38, R65). -/
def value2 (p : BitVec 5) (b1 : Byte) : Nat := p.toNat * 64 + b1.toNat % 64

/-- The value of a three-byte sequence (R38, R66). -/
def value3 (p : BitVec 4) (b1 b2 : Byte) : Nat := p.toNat * 4096 + b1.toNat % 64 * 64 + b2.toNat % 64

/-- The value of a four-byte sequence (R38, R67). -/
def value4 (p : BitVec 3) (b1 b2 b3 : Byte) : Nat :=
  p.toNat * 262144 + b1.toNat % 64 * 4096 + b2.toNat % 64 * 64 + b3.toNat % 64

/-- A value in the surrogate range (R71). -/
abbrev IsSurrogateValue (v : Nat) : Prop := 0xD800 ≤ v ∧ v ≤ 0xDFFF

/-- A stray continuation byte follows the n bytes of the sequence, under strict-trailing mode (R60); `bn` is lane n. -/
abbrev Stray (s : State) (len : LenField) (n : Nat) (bn : Byte) : Prop :=
  s.cfgStrictTrailing = true ∧ n + 1 ≤ len.toNat ∧ IsContByte bn

/-! ### The states a DECODE may leave (R54) -/

/-- The state after a failure of the given code: code and length are zero, every other field as it was (R54). -/
def failed (s : State) (code : ErrCode) : State :=
  { s with outErr := code, outCp := 0, outLen := 0, outOk := false }

/-- The state after a success with value `v` and length `n`, every other field as it was (R54). -/
def succeeded (s : State) (v n : Nat) : State :=
  { s with outErr := 0, outCp := BitVec.ofNat 32 v, outLen := BitVec.ofNat 8 n, outOk := true }

/-- Two states show the same outputs. -/
def SameOutputs (s t : State) : Prop :=
  s.outErr = t.outErr ∧ s.outCp = t.outCp ∧ s.outLen = t.outLen ∧ s.outOk = t.outOk

/-- Two states carry the same inputs. -/
def SameInputs (s t : State) : Prop :=
  s.inByte = t.inByte ∧ s.inLen = t.inLen ∧ s.cfgStrictTrailing = t.cfgStrictTrailing

/-! ### The accepted set (spec/30_encoding.md R44) -/

/-- The first n bytes of the window are a row of the table of R44: the rows with lead byte b0, then the bytes after it.
The answer holds for `n` only. -/
def AcceptedRow (n : Nat) (b0 : Byte) (t : Tail) : Prop :=
  (n = 1 ∧ InRange 0x00 0x7F b0) ∨
  (n = 2 ∧ InRange 0xC2 0xDF b0 ∧ InRange 0x80 0xBF t.b1) ∨
  (n = 3 ∧ InRange 0x80 0xBF t.b2 ∧
    ((InRange 0xE0 0xE0 b0 ∧ InRange 0xA0 0xBF t.b1) ∨ (InRange 0xE1 0xEC b0 ∧ InRange 0x80 0xBF t.b1) ∨
     (InRange 0xED 0xED b0 ∧ InRange 0x80 0x9F t.b1) ∨ (InRange 0xEE 0xEF b0 ∧ InRange 0x80 0xBF t.b1))) ∨
  (n = 4 ∧ InRange 0x80 0xBF t.b2 ∧ InRange 0x80 0xBF t.b3 ∧
    ((InRange 0xF0 0xF0 b0 ∧ InRange 0x90 0xBF t.b1) ∨ (InRange 0xF1 0xF3 b0 ∧ InRange 0x80 0xBF t.b1) ∨
     (InRange 0xF4 0xF4 b0 ∧ InRange 0x80 0x8F t.b1)))

/-- The window holds an accepted sequence of n bytes, with the trailing condition of R44 for n >= 2: `in_len` = n, or
b[n] is not a continuation byte. -/
def AcceptedWindow (s : State) (n : Nat) : Prop :=
  n ≤ s.inLen.toNat ∧ AcceptedRow n s.inByte[0] s.tail ∧
    (2 ≤ n → s.cfgStrictTrailing = true →
      s.inLen.toNat = n ∨ ∀ (h : n < 5), ¬ IsContByte s.inByte[n])

/-! ### The invariant -/

/-- What the outputs of a DECODE may be (R14, R15, R16, R18, R54). -/
def OutputsLegal (s : State) : Prop :=
  (s.outOk = true ↔ s.outErr = 0) ∧
  (s.outErr ≠ 0 → s.outCp = 0 ∧ s.outLen = 0) ∧
  (s.outErr = 0 → 1 ≤ s.outLen.toNat ∧ s.outLen.toNat ≤ 4 ∧ s.outCp.toNat ≤ 0x10FFFF ∧
    ¬ IsSurrogateValue s.outCp.toNat)

/-- The outputs are the function of the inputs that R19 and R20 speak of: the outcome of the document's `decode` on the
bytes the window shows. -/
def Settled (s : State) : Prop :=
  s.drive (decodeBytes hardware s.cfgStrictTrailing s.shownBytes) = s

/-- The invariant of this hardware: the mode is tied to 1 (R13), the outputs are legal and settled (R20). -/
def Inv (s : State) : Prop := s.cfgStrictTrailing = true ∧ OutputsLegal s ∧ Settled s

/-- R62: two windows agree on everything an outcome may depend on. -/
def AgreeOnDependences (s s' : State) : Prop :=
  s.cfgStrictTrailing = s'.cfgStrictTrailing ∧
  ((s.inLen = 0 ∧ s'.inLen = 0) ∨
   (s.inLen ≠ 0 ∧ s'.inLen ≠ 0 ∧ s.inByte[0] = s'.inByte[0] ∧
    ∀ n, leadClass s.inByte[0] = some n → 2 ≤ n →
      ((n ≤ s.inLen.toNat ↔ n ≤ s'.inLen.toNat) ∧
       (n ≤ s.inLen.toNat → ∀ (k : Nat) (_ : k < 5), 1 ≤ k → k < n → s.inByte[k] = s'.inByte[k]) ∧
       (s.cfgStrictTrailing = true →
         ((n + 1 ≤ s.inLen.toNat ↔ n + 1 ≤ s'.inLen.toNat) ∧
          (n + 1 ≤ s.inLen.toNat → ∀ (_ : n < 5), (IsContByte s.inByte[n] ↔ IsContByte s'.inByte[n])))))))

end Sys2Proof.Machine
end

