-- ==== Sys2Proof/Certificates/Slice0/Obligations.lean ====
section
/-! DEFINITION. The statements for the provers. The codes on `out_err` are those of spec/10_state.md R14 (numbers by the
spec's decision D5). An equation `exec i s = .next (failed s c)` or `.next (succeeded s v n)` says the whole next state:
the four outputs, and that every input field is as it was. -/

open Sys2Proof Sys2Proof.Machine

/-! ### Encoding and decoding -/

/-- R34, R35, R40, R41: a few request words of spec/95_test_vectors.md, one for each class, decode to the class they stand
for. -/
def Obligations.SpecWordsDecode : Prop :=
  decodeReq 0x0808080A9C2 = .empty 0xC2 ⟨0xA9, 0x80, 0x80, 0x80⟩ ∧
  decodeReq 0x10000000041 = .dec1 1 0x41 ⟨0, 0, 0, 0⟩ ∧
  decodeReq 0x100000000BF = .badleadCont 1 0x3F ⟨0, 0, 0, 0⟩ ∧
  decodeReq 0x30000C2A9C2 = .dec2 3 0x02 ⟨0xA9, 0xC2, 0x00, 0x00⟩ ∧
  decodeReq 0x40041AC82E2 = .dec3 4 0x2 ⟨0x82, 0xAC, 0x41, 0x00⟩ ∧
  decodeReq 0x54180989FF0 = .dec4 5 0x0 ⟨0x9F, 0x98, 0x80, 0x41⟩ ∧
  decodeReq 0x580808080FE = .badleadHigh 5 0x6 ⟨0x80, 0x80, 0x80, 0x80⟩

/-- R32, R34: no bit of an encoding is dropped: decoding the word of a well-formed instruction gives it back, with every
operand. -/
def Obligations.DecodeEncodeRoundTrip : Prop :=
  ∀ i : Instr, i.wellFormed = true → decodeReq (encode i) = i

/-- R41: every request word has a class: it decodes to a well-formed instruction whose word it is. -/
def Obligations.EveryRequestIsOneInstruction : Prop :=
  ∀ r : Req, (decodeReq r).wellFormed = true ∧ encode (decodeReq r) = r

/-- R32 makes `REQ` a 43-bit word. That the decoder of numbers rejects, by name, exactly the numbers of 2^43 or more is the
model's choice (log 16). -/
def Obligations.OnlyWiderNumbersAreRejected : Prop :=
  ∀ w : Nat, (decodeWord w = .error .widerThanRequest ↔ 2 ^ 43 ≤ w) ∧
    (w < 2 ^ 43 → decodeWord w = .ok (decodeReq (BitVec.ofNat 43 w)))

/-- R35: the complete map of the 256 lead bytes by ranges, and EMPTY before it (R40). -/
def Obligations.ClassFollowsLeadByteRange : Prop :=
  ∀ r : Req, let len := reqLen r; let b := (reqByte 0 r).toNat; let t := reqTail r
    (len = 0 → decodeReq r = .empty (reqByte 0 r) t) ∧
    (len ≠ 0 → b ≤ 0x7F → decodeReq r = .dec1 len (BitVec.ofNat 7 b) t) ∧
    (len ≠ 0 → 0x80 ≤ b → b ≤ 0xBF → decodeReq r = .badleadCont len (BitVec.ofNat 6 (b - 0x80)) t) ∧
    (len ≠ 0 → 0xC0 ≤ b → b ≤ 0xDF → decodeReq r = .dec2 len (BitVec.ofNat 5 (b - 0xC0)) t) ∧
    (len ≠ 0 → 0xE0 ≤ b → b ≤ 0xEF → decodeReq r = .dec3 len (BitVec.ofNat 4 (b - 0xE0)) t) ∧
    (len ≠ 0 → 0xF0 ≤ b → b ≤ 0xF7 → decodeReq r = .dec4 len (BitVec.ofNat 3 (b - 0xF0)) t) ∧
    (len ≠ 0 → 0xF8 ≤ b → decodeReq r = .badleadHigh len (BitVec.ofNat 3 (b - 0xF8)) t)

/-- The model's snapshot (R31; log 9): where the pins carry the word of a well-formed instruction, a step is that
instruction's `exec` and nothing around it (R17: no pc); and presenting a word puts it on the pins. -/
def Obligations.StepRunsThePresentedInstruction : Prop :=
  (∀ (i : Instr) (s : State), i.wellFormed = true → s.request = encode i → step s = exec i s) ∧
  (∀ (r : Req) (s : State), (s.presentRequest r).request = r)

/-- The model's choice, log 10 and log 11: after `withFetchWord`, the next step runs exactly the instruction that
`decodeTableWord` reads from the same word, and the outputs and the mode are left as they were. -/
def Obligations.StepRunsTheTableWord : Prop :=
  ∀ (s : State) (nbits w : Nat) (i : Instr), decodeTableWord nbits w = some i →
    step (s.withFetchWord nbits w) = exec i (s.withFetchWord nbits w) ∧
    SameOutputs s (s.withFetchWord nbits w) ∧
    s.cfgStrictTrailing = (s.withFetchWord nbits w).cfgStrictTrailing

/-! ### What each class does -/

/-- R46: EMPTY raises `EmptyInput` (code 1), always, whatever the lanes hold. -/
def Obligations.EmptyRaisesEmptyInput : Prop :=
  ∀ (b0 : Byte) (t : Tail) (s : State), exec (.empty b0 t) s = .next (failed s 1)

/-- R47: DEC1 always succeeds with the lead byte as its value and length 1. That the bytes after b[0] are ignored is the
spec's decision D8 (log 4). -/
def Obligations.Dec1ReturnsTheLeadByte : Prop :=
  ∀ (len : LenField) (p : BitVec 7) (t : Tail) (s : State),
    exec (.dec1 len p t) s = .next (succeeded s p.toNat 1)

/-- R51: BADLEAD_CONT raises `InvalidLeadByte` (code 2), always. -/
def Obligations.BadleadContRaisesInvalidLeadByte : Prop :=
  ∀ (len : LenField) (p : BitVec 6) (t : Tail) (s : State),
    exec (.badleadCont len p t) s = .next (failed s 2)

/-- R52: BADLEAD_HIGH raises `InvalidLeadByte` (code 2), always. -/
def Obligations.BadleadHighRaisesInvalidLeadByte : Prop :=
  ∀ (len : LenField) (p : BitVec 3) (t : Tail) (s : State),
    exec (.badleadHigh len p t) s = .next (failed s 2)

/-- R48: the outcome of DEC2 for every operand and every length, the checks in the order of its pseudocode, which is the
spec's decision D6 (log 5). -/
def Obligations.Dec2Outcome : Prop :=
  ∀ (len : LenField) (p : BitVec 5) (t : Tail) (s : State),
    exec (.dec2 len p t) s = .next
      (if len.toNat < 2 then failed s 3
       else if ¬ IsContByte t.b1 then failed s 4
       else if value2 p t.b1 < 0x80 then failed s 5
       else if Stray s len 2 t.b2 then failed s 3
       else succeeded s (value2 p t.b1) 2)

/-- R49: the outcome of DEC3 for every operand and every length, the checks in the order of its pseudocode, which is the
spec's decision D6 (log 5); b0 is 0xE0 exactly when its payload is 0. -/
def Obligations.Dec3Outcome : Prop :=
  ∀ (len : LenField) (p : BitVec 4) (t : Tail) (s : State),
    exec (.dec3 len p t) s = .next
      (if len.toNat < 3 then failed s 3
       else if ¬ (IsContByte t.b1 ∧ IsContByte t.b2) then failed s 4
       else if p.toNat = 0 ∧ t.b1.toNat < 0xA0 then failed s 5
       else if Stray s len 3 t.b3 then failed s 3
       else if IsSurrogateValue (value3 p t.b1 t.b2) then failed s 6
       else succeeded s (value3 p t.b1 t.b2) 3)

/-- R50: the outcome of DEC4 for every operand and every length. The order of the checks is the spec's decision D6
(log 5), and that the trailing check applies at n = 4 its decision D9 (log 6). The surrogate check of its pseudocode is left out, because it never fires. -/
def Obligations.Dec4Outcome : Prop :=
  ∀ (len : LenField) (p : BitVec 3) (t : Tail) (s : State),
    exec (.dec4 len p t) s = .next
      (if len.toNat < 4 then failed s 3
       else if ¬ (IsContByte t.b1 ∧ IsContByte t.b2 ∧ IsContByte t.b3) then failed s 4
       else if p.toNat = 0 ∧ t.b1.toNat < 0x90 then failed s 5
       else if Stray s len 4 t.b4 then failed s 3
       else if 0x10FFFF < value4 p t.b1 t.b2 t.b3 then failed s 7
       else succeeded s (value4 p t.b1 t.b2 t.b3) 4)

/-! ### The validator, the assembler and the value checks -/

/-- R56, R57: the mask tests as ranges: the continuation bytes, and the declared length of every lead byte. -/
def Obligations.PatternTestsMatchTheirRanges : Prop :=
  ∀ c : Byte, (isCont c = true ↔ 0x80 ≤ c.toNat ∧ c.toNat ≤ 0xBF) ∧
    (leadClass c = some 1 ↔ c.toNat < 0x80) ∧
    (leadClass c = some 2 ↔ 0xC0 ≤ c.toNat ∧ c.toNat ≤ 0xDF) ∧
    (leadClass c = some 3 ↔ 0xE0 ≤ c.toNat ∧ c.toNat ≤ 0xEF) ∧
    (leadClass c = some 4 ↔ 0xF0 ≤ c.toNat ∧ c.toNat ≤ 0xF7) ∧
    (leadClass c = none ↔ IsContByte c ∨ 0xF8 ≤ c.toNat)

/-- R65, R66, R67: the shift-and-or form and the concatenation are one value, the payload fields as digits, within the
range each rule gives. -/
def Obligations.AssembledValueIsPositional : Prop :=
  ∀ b0 b1 b2 b3 : Byte,
    (assembleSeq b0 [b1] = assemble2 (b0.extractLsb' 0 5) b1 ∧
     (assembleSeq b0 [b1]).toNat = b0.toNat % 32 * 64 + b1.toNat % 64 ∧
     (assembleSeq b0 [b1]).toNat ≤ 0x7FF) ∧
    (assembleSeq b0 [b1, b2] = assemble3 (b0.extractLsb' 0 4) b1 b2 ∧
     (assembleSeq b0 [b1, b2]).toNat = b0.toNat % 16 * 4096 + b1.toNat % 64 * 64 + b2.toNat % 64 ∧
     (assembleSeq b0 [b1, b2]).toNat ≤ 0xFFFF) ∧
    (assembleSeq b0 [b1, b2, b3] = assemble4 (b0.extractLsb' 0 3) b1 b2 b3 ∧
     (assembleSeq b0 [b1, b2, b3]).toNat =
       b0.toNat % 8 * 262144 + b1.toNat % 64 * 4096 + b2.toNat % 64 * 64 + b3.toNat % 64 ∧
     (assembleSeq b0 [b1, b2, b3]).toNat ≤ 0x1FFFFF)

/-- R68, R69, R70: for continuation bytes, each overlong test is the value's being below the minimum of its length
(90_conflicts.md C2). -/
def Obligations.OverlongMeansBelowTheMinimum : Prop :=
  (∀ (p : BitVec 5) (b1 : Byte), IsContByte b1 →
    (overlong 2 (0b110#3 ++ p) b1 (assemble2 p b1) = true ↔ value2 p b1 < 0x80)) ∧
  (∀ (p : BitVec 4) (b1 b2 : Byte), IsContByte b1 → IsContByte b2 →
    (overlong 3 (0b1110#4 ++ p) b1 (assemble3 p b1 b2) = true ↔ value3 p b1 b2 < 0x800)) ∧
  (∀ (p : BitVec 3) (b1 b2 b3 : Byte), IsContByte b1 → IsContByte b2 → IsContByte b3 →
    (overlong 4 (0b11110#5 ++ p) b1 (assemble4 p b1 b2 b3) = true ↔ value4 p b1 b2 b3 < 0x10000))

/-- R74: which value checks exclude each other; that a one-byte value is not too large is its range in R73. -/
def Obligations.ValueChecksExcludeEachOther : Prop :=
  (∀ cp : CodePoint, ¬ (surrogate cp = true ∧ tooLarge cp = true)) ∧
  (∀ b0 : Byte, b0.toNat < 0x80 →
    surrogate (assemble1 b0) = false ∧ tooLarge (assemble1 b0) = false) ∧
  (∀ (p : BitVec 5) (b1 : Byte),
    surrogate (assemble2 p b1) = false ∧ tooLarge (assemble2 p b1) = false) ∧
  (∀ (p : BitVec 4) (b1 b2 : Byte), IsContByte b1 → IsContByte b2 →
    tooLarge (assemble3 p b1 b2) = false ∧
    ¬ (overlong 3 (0b1110#4 ++ p) b1 (assemble3 p b1 b2) = true ∧ surrogate (assemble3 p b1 b2) = true)) ∧
  (∀ (p : BitVec 3) (b1 b2 b3 : Byte), IsContByte b1 → IsContByte b2 → IsContByte b3 →
    let cp := assemble4 p b1 b2 b3
    let tooLong := overlong 4 (0b11110#5 ++ p) b1 cp
    ((tooLong = true ∧ surrogate cp = true) ↔ (p = 0 ∧ b1 = 0x8D ∧ 0xA0 ≤ b2.toNat)) ∧
    (tooLong = false → 0x10000 ≤ cp.toNat ∧ surrogate cp = false) ∧
    ¬ (tooLong = true ∧ tooLarge cp = true))

/-! ### Every step -/

/-- R53: every DECODE completes: no class and no number of steps ends in a fault or a refusal. -/
def Obligations.EveryDecodeCompletes : Prop :=
  (∀ (i : Instr) (s : State), ∃ t, exec i s = .next t) ∧ (∀ (k : Nat) (s : State), ∃ t, core.run k s = .next t)

/-- R17: CORE drives the four outputs only; the lanes, `in_len` and `cfg_strict_trailing` are as they were after every
class and after every step. -/
def Obligations.InputsAreNeverDriven : Prop :=
  (∀ (i : Instr) (s : State), ∃ t, exec i s = .next t ∧ SameInputs s t) ∧
  (∀ s : State, ∃ t, step s = .next t ∧ SameInputs s t)

/-- R40: with `in_len` = 0 the request on the pins selects EMPTY and a step raises `EmptyInput`, whatever the lanes hold;
with `in_len` >= 1 it never selects EMPTY. -/
def Obligations.ZeroLengthIsEmptyInput : Prop :=
  ∀ s : State,
    (s.inLen = 0 → decodeReq s.request = .empty s.inByte[0] s.tail ∧ step s = .next (failed s 1)) ∧
    (s.inLen ≠ 0 → ∀ (b0 : Byte) (t : Tail), decodeReq s.request ≠ .empty b0 t)

/-- R75, R76: after a step, `out_err` is 1 exactly when no byte is present, and 2 exactly when the lead byte present has
none of the four patterns; EMPTY alone raises the first, the two BADLEAD classes alone the second; neither records
anything else. -/
def Obligations.EmptyAndLeadErrorsHaveTheirCauses : Prop :=
  ∀ s : State, ∃ t, step s = .next t ∧
    (t.outErr = 1 ↔ s.inLen = 0) ∧
    (t.outErr = 2 ↔ s.inLen ≠ 0 ∧ (InRange 0x80 0xBF s.inByte[0] ∨ InRange 0xF8 0xFF s.inByte[0])) ∧
    (t.outErr = 1 ↔ ∃ b0 u, decodeReq s.request = .empty b0 u) ∧
    (t.outErr = 2 ↔ ∃ len u, (∃ p, decodeReq s.request = .badleadCont len p u) ∨
      ∃ p, decodeReq s.request = .badleadHigh len p u) ∧
    (t.outErr = 1 ∨ t.outErr = 2 → t.outCp = 0 ∧ t.outLen = 0 ∧ t.outOk = false)

/-- R78: after a step, `out_err` is 4 exactly when a multi-byte lead byte's bytes are all present and one of them is no
continuation byte; DEC2, DEC3 and DEC4 alone raise it; nothing else is recorded. That a missing byte is reported
first is the spec's decision D6 (log 5). -/
def Obligations.ContinuationErrorHasItsCause : Prop :=
  ∀ s : State, ∃ t, step s = .next t ∧
    (t.outErr = 4 ↔ ∃ n, leadClass s.inByte[0] = some n ∧ 2 ≤ n ∧ n ≤ s.inLen.toNat ∧
      ∃ (k : Nat) (_ : k < 5), 1 ≤ k ∧ k < n ∧ ¬ IsContByte s.inByte[k]) ∧
    (t.outErr = 4 → (∃ len p u, decodeReq s.request = .dec2 len p u) ∨
      (∃ len p u, decodeReq s.request = .dec3 len p u) ∨ ∃ len p u, decodeReq s.request = .dec4 len p u) ∧
    (t.outErr = 4 → t.outCp = 0 ∧ t.outLen = 0 ∧ t.outOk = false)

/-- R77: after a step, `out_err` is 3 exactly when fewer bytes are present than a multi-byte lead byte declares, or a
sequence that is complete and not overlong is followed by a stray continuation byte. That a stray continuation byte is
reported before a surrogate or too-large value is the spec's decision D6 (log 5). -/
def Obligations.LengthErrorHasItsCauses : Prop :=
  ∀ s : State, ∃ t, step s = .next t ∧
    (t.outErr = 3 ↔ s.inLen ≠ 0 ∧ ∃ n, leadClass s.inByte[0] = some n ∧ 2 ≤ n ∧
      (s.inLen.toNat < n ∨
        ((∀ (k : Nat) (_ : k < 5), 1 ≤ k → k < n → IsContByte s.inByte[k]) ∧
         ¬ (s.inByte[0].toNat = 0xC0 ∨ s.inByte[0].toNat = 0xC1 ∨
            (s.inByte[0].toNat = 0xE0 ∧ s.inByte[1].toNat < 0xA0) ∨
            (s.inByte[0].toNat = 0xF0 ∧ s.inByte[1].toNat < 0x90)) ∧
         ∀ (h : n < 5), Stray s s.inLen n s.inByte[n])))

/-- R80, R81: a step reports `SurrogateHalf` only for a lead byte 0xED with b[1] >= 0xA0, and `TooLarge` only for 0xF4
with b[1] >= 0x90 or for 0xF5 to 0xF7; under strict-trailing mode never before a stray continuation byte (decision D6,
log 5). -/
def Obligations.RangeErrorsHaveTheirCauses : Prop :=
  ∀ s : State, ∃ t, step s = .next t ∧
    (t.outErr = 6 ↔ 3 ≤ s.inLen.toNat ∧ InRange 0xED 0xED s.inByte[0] ∧ InRange 0xA0 0xBF s.inByte[1] ∧
      IsContByte s.inByte[2] ∧ ¬ Stray s s.inLen 3 s.inByte[3]) ∧
    (t.outErr = 7 ↔ 4 ≤ s.inLen.toNat ∧
      ((InRange 0xF4 0xF4 s.inByte[0] ∧ InRange 0x90 0xBF s.inByte[1]) ∨
       (InRange 0xF5 0xF7 s.inByte[0] ∧ IsContByte s.inByte[1])) ∧
      IsContByte s.inByte[2] ∧ IsContByte s.inByte[3] ∧ ¬ Stray s s.inLen 4 s.inByte[4])

/-- R42: lead bytes and byte pairs that pass the lead-byte map and never succeed. -/
def Obligations.SomeLeadsNeverSucceed : Prop :=
  ∀ s : State,
    (InRange 0xC0 0xC1 s.inByte[0] ∨ InRange 0xF5 0xF7 s.inByte[0] ∨
     (s.inByte[0] = 0xE0 ∧ InRange 0x80 0x9F s.inByte[1]) ∨ (s.inByte[0] = 0xED ∧ InRange 0xA0 0xBF s.inByte[1]) ∨
     (s.inByte[0] = 0xF0 ∧ InRange 0x80 0x8F s.inByte[1]) ∨ (s.inByte[0] = 0xF4 ∧ InRange 0x90 0xBF s.inByte[1])) →
    ∃ t, step s = .next t ∧ t.outOk = false

/-- R44: a step succeeds exactly on the windows of the table of accepted sequences, and the consumed length is that of
the row. -/
def Obligations.AcceptedSetIsTheTable : Prop :=
  ∀ s : State, ∃ t, step s = .next t ∧
    (t.outOk = true ↔ ∃ n, AcceptedWindow s n) ∧
    (∀ n, AcceptedWindow s n → t.outLen.toNat = n)

/-- R33: the packed response: (n << 32) | cp on success, code << 40 on failure. -/
def Obligations.ResponseWordPacksTheOutcome : Prop :=
  ∀ s : State, ∃ t, step s = .next t ∧
    (t.outOk = true → t.response.toNat = t.outLen.toNat * 2 ^ 32 + t.outCp.toNat) ∧
    (t.outOk = false → t.response.toNat = t.outErr.toNat * 2 ^ 40 ∧ t.outErr ≠ 0)

/-! ### What an outcome depends on -/

/-- R19: the outputs are a function of `in_len`, `cfg_strict_trailing` and the lanes at index < min(in_len, 5); no lane
beyond (the spec's decision D3, log 13) and no earlier output changes any of them. -/
def Obligations.OutputsDependOnPresentBytesOnly : Prop :=
  ∀ s s' : State, s.inLen = s'.inLen → s.cfgStrictTrailing = s'.cfgStrictTrailing →
    (∀ (i : Nat) (_ : i < 5), i < s.inLen.toNat → s.inByte[i] = s'.inByte[i]) →
    ∃ t t', step s = .next t ∧ step s' = .next t' ∧ SameOutputs t t'

/-- R62: the dependence bound: two windows that agree on what the rule names have the same outcome. -/
def Obligations.DependenceBound : Prop :=
  ∀ s s' : State, AgreeOnDependences s s' →
    ∃ t t', step s = .next t ∧ step s' = .next t' ∧ SameOutputs t t'

/-- R12: the values 5, 6 and 7 of `in_len` behave identically. -/
def Obligations.LengthsFiveToSevenAreAlike : Prop :=
  ∀ (s : State) (len : LenField), 5 ≤ s.inLen.toNat → 5 ≤ len.toNat →
    ∃ t t', step s = .next t ∧ step { s with inLen := len } = .next t' ∧ SameOutputs t t'

/-- R92: consecutive DECODEs are independent: the outputs before a step change nothing, and a request repeated gives the
same outcome. -/
def Obligations.RepeatedRequestSameOutcome : Prop :=
  ∀ s s' : State, SameInputs s s' → ∃ t, step s = .next t ∧ step s' = .next t ∧ step t = .next t

/-- R89: the first DECODE after reset behaves like every later one, on any request and from any outputs (no reset: the
spec's decision D11). The mode after reset is 1 (R13). -/
def Obligations.FirstDecodeAfterResetIsLikeEveryOther : Prop :=
  State.reset.cfgStrictTrailing = true ∧
  ∀ (s : State) (r : Req), s.cfgStrictTrailing = true →
    ∃ t, step (State.reset.presentRequest r) = .next t ∧ step (s.presentRequest r) = .next t

/-- R13: with `cfg_strict_trailing` = 0 the bytes after the sequence change nothing: the outcome is that of the sequence
alone (the setting is the spec's decision D7, log 3). -/
def Obligations.ModeOffReturnsTheValidatedPrefix : Prop :=
  ∀ (s : State) (n : Nat), s.cfgStrictTrailing = false → leadClass s.inByte[0] = some n → n ≤ s.inLen.toNat →
    ∃ t t', step s = .next t ∧ step { s with inLen := BitVec.ofNat 3 n } = .next t' ∧ SameOutputs t t'

/-- D6: the place of the trailing check decides only which error is reported: success, and its value and length, are the
same under both values of `P_TRAIL_BEFORE_RANGE`. -/
def Obligations.TrailOrderChangesOnlyTheKind : Prop :=
  ∀ (a strict : Bool) (bs : List Byte),
    let d := decodeBytes ⟨a, true⟩ strict bs
    let d' := decodeBytes ⟨a, false⟩ strict bs
    d.isOk = d'.isOk ∧ (d.isOk = true → d = d') ∧
    (d ≠ d' → d = .raise .invalidLength ∧ (d' = .raise .surrogateHalf ∨ d' = .raise .tooLarge))

/-- D8: `P_TRAIL_ASCII` changes an outcome only on inputs with b0 < 0x80 followed by a continuation byte, and there from
success to `InvalidLength`. -/
def Obligations.TrailAsciiChangesOnlyOneByteSequences : Prop :=
  ∀ (r strict : Bool) (bs : List Byte),
    decodeBytes ⟨false, r⟩ strict bs ≠ decodeBytes ⟨true, r⟩ strict bs →
      strict = true ∧ decodeBytes ⟨true, r⟩ strict bs = .raise .invalidLength ∧
      ∃ b0 b1 rest, bs = b0 :: b1 :: rest ∧ b0.toNat < 0x80 ∧ IsContByte b1 ∧
        decodeBytes ⟨false, r⟩ strict bs = .ok (BitVec.ofNat 32 b0.toNat) 1

/-! ### Headline -/

/-- R24 with R45: on every window that carries a byte sequence, of any length and with anything in the lanes beyond it, a
step drives the outcome of the document's `decode` on the whole sequence. -/
def Obligations.WindowDecodeEqualsSequenceDecode : Prop :=
  ∀ (s : State) (bs : List Byte), Presents s bs →
    step s = .next (s.drive (decodeBytes hardware s.cfgStrictTrailing bs))

/-- R55: the round-trip law: after a success, the minimal-length encoding of the code point is exactly the consumed
bytes, all of them present (`encodeMinimal` is log 15). -/
def Obligations.SuccessReencodesToConsumedBytes : Prop :=
  ∀ s : State, ∃ t, step s = .next t ∧
    (t.outOk = true → t.outLen.toNat ≤ s.inLen.toNat ∧
      encodeMinimal t.outCp = s.inByte.toList.take t.outLen.toNat)

/-- The §8 property S10 with the qualification of 90_conflicts.md C3: the minimal-length encoding of every valid code
point, alone or followed by bytes of which the first is no continuation byte, decodes to that code point. -/
def Obligations.EveryValidCodePointDecodes : Prop :=
  ∀ (cp : CodePoint) (rest : List Byte) (s : State),
    cp.toNat ≤ 0x10FFFF → ¬ IsSurrogateValue cp.toNat → (∀ b ∈ rest.head?, ¬ IsContByte b) →
    Presents s (encodeMinimal cp ++ rest) →
    step s = .next (succeeded s cp.toNat (encodeMinimal cp).length)

/-- R15, R18: the outputs a step may leave, from any state: on success a valid code point and a length of 1 to 4, on
failure zeros, and `out_ok` is `out_err == 0`. -/
def Obligations.OutputsAreLegalAfterEveryStep : Prop :=
  ∀ s : State, ∃ t, step s = .next t ∧ OutputsLegal t

/-- R13, R20: a step keeps the invariant: the mode tied to 1, legal outputs, and the outputs the function of the inputs. -/
def Obligations.StepKeepsTheInvariant : Prop :=
  ∀ s t : State, Inv s → step s = .next t → Inv t

/-- R20, R21: the state after reset has the invariant (its inputs are the model's choice, log 2). -/
def Obligations.ResetHasTheInvariant : Prop := Inv State.reset
end

