-- ==== Sys2Proof/Laws/Codec.lean ====
section
/-! SUPPORT. The request word: its value, and that packing and reading the fields undo each other. -/

namespace Sys2Proof

/-- Concatenation as arithmetic. -/
theorem toNat_append_eq {a b : Nat} (x : BitVec a) (y : BitVec b) :
    (x ++ y).toNat = x.toNat * 2 ^ b + y.toNat := by
  rw [BitVec.toNat_append, ← Nat.shiftLeft_add_eq_or_of_lt y.isLt, Nat.shiftLeft_eq]

/-- The value of a request word (R32). -/
theorem packRequest_toNat (len : LenField) (b0 : Byte) (t : Tail) :
    (packRequest len b0 t).toNat = len.toNat * 2 ^ 40 + t.b4.toNat * 2 ^ 32 + t.b3.toNat * 2 ^ 24
      + t.b2.toNat * 2 ^ 16 + t.b1.toNat * 2 ^ 8 + b0.toNat := by
  unfold packRequest
  simp only [toNat_append_eq]
  omega

@[simp] theorem reqLen_packRequest (len : LenField) (b0 : Byte) (t : Tail) :
    reqLen (packRequest len b0 t) = len := by
  apply BitVec.eq_of_toNat_eq
  simp only [reqLen, BitVec.extractLsb'_toNat, packRequest_toNat, Nat.shiftRight_eq_div_pow]
  have := len.isLt; have := b0.isLt; have := t.b1.isLt; have := t.b2.isLt; have := t.b3.isLt; have := t.b4.isLt
  omega

/-- The five lanes of a packed request. -/
theorem reqByte_packRequest (len : LenField) (b0 : Byte) (t : Tail) :
    reqByte 0 (packRequest len b0 t) = b0 ∧ reqByte 1 (packRequest len b0 t) = t.b1 ∧
    reqByte 2 (packRequest len b0 t) = t.b2 ∧ reqByte 3 (packRequest len b0 t) = t.b3 ∧
    reqByte 4 (packRequest len b0 t) = t.b4 := by
  have := len.isLt; have := b0.isLt; have := t.b1.isLt; have := t.b2.isLt; have := t.b3.isLt; have := t.b4.isLt
  refine ⟨?_, ?_, ?_, ?_, ?_⟩ <;> apply BitVec.eq_of_toNat_eq <;>
    simp only [reqByte, BitVec.extractLsb'_toNat, packRequest_toNat, Nat.shiftRight_eq_div_pow] <;> omega

@[simp] theorem reqByte_zero_packRequest (len : LenField) (b0 : Byte) (t : Tail) :
    reqByte 0 (packRequest len b0 t) = b0 := (reqByte_packRequest len b0 t).1

@[simp] theorem reqTail_packRequest (len : LenField) (b0 : Byte) (t : Tail) :
    reqTail (packRequest len b0 t) = t := by
  obtain ⟨-, h1, h2, h3, h4⟩ := reqByte_packRequest len b0 t
  simp [reqTail, h1, h2, h3, h4]

/-- Every word is the packing of its fields. -/
@[simp] theorem packRequest_of_fields (r : Req) : packRequest (reqLen r) (reqByte 0 r) (reqTail r) = r := by
  apply BitVec.eq_of_toNat_eq
  rw [packRequest_toNat]
  simp only [reqLen, reqByte, reqTail, BitVec.extractLsb'_toNat, Nat.shiftRight_eq_div_pow]
  have := r.isLt
  omega

end Sys2Proof
end

