-- ==== Sys2Proof/Laws/State.lean ====
section
/-! SUPPORT. One lemma per field of State for each update: driving an outcome, and the caller's presenting a request. -/

namespace Sys2Proof.Machine

/-! ### `drive` -/

@[simp] theorem drive_inByte (s : State) (d : DecodeResult) : (s.drive d).inByte = s.inByte := rfl
@[simp] theorem drive_inLen (s : State) (d : DecodeResult) : (s.drive d).inLen = s.inLen := rfl
@[simp] theorem drive_cfgStrictTrailing (s : State) (d : DecodeResult) :
    (s.drive d).cfgStrictTrailing = s.cfgStrictTrailing := rfl
@[simp] theorem drive_outErr (s : State) (d : DecodeResult) : (s.drive d).outErr = d.err := rfl
@[simp] theorem drive_outCp (s : State) (d : DecodeResult) : (s.drive d).outCp = d.cp := rfl
@[simp] theorem drive_outLen (s : State) (d : DecodeResult) : (s.drive d).outLen = d.len := rfl
@[simp] theorem drive_outOk (s : State) (d : DecodeResult) : (s.drive d).outOk = d.isOk := rfl
@[simp] theorem drive_tail (s : State) (d : DecodeResult) : (s.drive d).tail = s.tail := rfl
@[simp] theorem drive_request (s : State) (d : DecodeResult) : (s.drive d).request = s.request := rfl
@[simp] theorem drive_shownBytes (s : State) (d : DecodeResult) : (s.drive d).shownBytes = s.shownBytes := rfl
@[simp] theorem drive_drive (s : State) (d e : DecodeResult) : (s.drive d).drive e = s.drive e := rfl

/-! ### `present` -/

@[simp] theorem present_inByte (s : State) (len : LenField) (b0 : Byte) (t : Tail) :
    (s.present len b0 t).inByte = #v[b0, t.b1, t.b2, t.b3, t.b4] := rfl
@[simp] theorem present_inLen (s : State) (len : LenField) (b0 : Byte) (t : Tail) :
    (s.present len b0 t).inLen = len := rfl
@[simp] theorem present_tail (s : State) (len : LenField) (b0 : Byte) (t : Tail) :
    (s.present len b0 t).tail = t := rfl
@[simp] theorem present_cfgStrictTrailing (s : State) (len : LenField) (b0 : Byte) (t : Tail) :
    (s.present len b0 t).cfgStrictTrailing = s.cfgStrictTrailing := rfl
@[simp] theorem present_outErr (s : State) (len : LenField) (b0 : Byte) (t : Tail) :
    (s.present len b0 t).outErr = s.outErr := rfl
@[simp] theorem present_outCp (s : State) (len : LenField) (b0 : Byte) (t : Tail) :
    (s.present len b0 t).outCp = s.outCp := rfl
@[simp] theorem present_outLen (s : State) (len : LenField) (b0 : Byte) (t : Tail) :
    (s.present len b0 t).outLen = s.outLen := rfl
@[simp] theorem present_outOk (s : State) (len : LenField) (b0 : Byte) (t : Tail) :
    (s.present len b0 t).outOk = s.outOk := rfl
@[simp] theorem present_request (s : State) (len : LenField) (b0 : Byte) (t : Tail) :
    (s.present len b0 t).request = packRequest len b0 t := rfl

end Sys2Proof.Machine
end

