-- ==== Sys2Proof/Laws/Ops.lean ====
section
/-! SUPPORT. One lemma per shared operation: what it computes, as numbers and ranges, so that a proof about a class
cites these and unfolds none of them. -/

namespace Sys2Proof.Machine

/-! ### Validator -/

theorem isCont_eq_decide (c : Byte) : isCont c = decide (IsContByte c) := by revert c; decide

theorem lengthCheck_eq_decide (len : LenField) (n : Nat) : lengthCheck len n = decide (n ≤ len.toNat) := rfl

theorem trailCheck_eq_decide (s : State) (len : LenField) (n : Nat) (bn : Byte) :
    trailCheck s.cfgStrictTrailing len n bn = decide (Stray s len n bn) := by
  simp [trailCheck, isCont_eq_decide, Stray, Bool.decide_and, Bool.and_assoc]

/-! ### Assembler -/

theorem contPayload_toNat (c : Byte) : (contPayload c).toNat = c.toNat % 64 := by simp [contPayload]

theorem assemble2_toNat (p : BitVec 5) (b1 : Byte) : (assemble2 p b1).toNat = value2 p b1 := by
  simp only [assemble2, value2, BitVec.truncate_eq_setWidth, BitVec.toNat_setWidth, toNat_append_eq, contPayload_toNat]
  have := p.isLt
  omega

theorem assemble3_toNat (p : BitVec 4) (b1 b2 : Byte) : (assemble3 p b1 b2).toNat = value3 p b1 b2 := by
  simp only [assemble3, value3, BitVec.truncate_eq_setWidth, BitVec.toNat_setWidth, toNat_append_eq, contPayload_toNat]
  have := p.isLt
  omega

theorem assemble4_toNat (p : BitVec 3) (b1 b2 b3 : Byte) :
    (assemble4 p b1 b2 b3).toNat = value4 p b1 b2 b3 := by
  simp only [assemble4, value4, BitVec.truncate_eq_setWidth, BitVec.toNat_setWidth, toNat_append_eq, contPayload_toNat]
  have := p.isLt
  omega

/-! ### Value checks -/

theorem overlong_two_eq_decide (b0 b1 : Byte) (cp : CodePoint) :
    overlong 2 b0 b1 cp = decide (cp.toNat < 0x80) := by simp [overlong, BitVec.lt_def]

theorem overlong_three_eq_decide (p : BitVec 4) (b1 : Byte) (cp : CodePoint) :
    overlong 3 (0b1110#4 ++ p) b1 cp = decide (p.toNat = 0 ∧ b1.toNat < 0xA0) := by
  have h : ∀ p : BitVec 4, ((0b1110#4 ++ p : Byte) == 0xE0) = decide (p.toNat = 0) := by decide
  simp only [overlong]
  rw [show ((0b1110#4 ++ p : Byte) == 0xE0) = decide (p.toNat = 0) from h p]
  simp [BitVec.lt_def]

theorem overlong_four_eq_decide (p : BitVec 3) (b1 : Byte) (cp : CodePoint) :
    overlong 4 (0b11110#5 ++ p) b1 cp = decide (p.toNat = 0 ∧ b1.toNat < 0x90) := by
  have h : ∀ p : BitVec 3, ((0b11110#5 ++ p : Byte) == 0xF0) = decide (p.toNat = 0) := by decide
  simp only [overlong]
  rw [show ((0b11110#5 ++ p : Byte) == 0xF0) = decide (p.toNat = 0) from h p]
  simp [BitVec.lt_def]

theorem surrogate_eq_decide (cp : CodePoint) : surrogate cp = decide (IsSurrogateValue cp.toNat) := by
  simp [surrogate, surrLo, surrHi, BitVec.le_def, IsSurrogateValue]

theorem tooLarge_eq_decide (cp : CodePoint) : tooLarge cp = decide (0x10FFFF < cp.toNat) := by
  simp [tooLarge, maxCp, BitVec.lt_def]

/-! ### Driving an outcome -/

theorem drive_ok (s : State) (cp : CodePoint) (n : OutLen) :
    s.drive (.ok cp n) = succeeded s cp.toNat n.toNat := by
  simp [State.drive, succeeded, DecodeResult.err, DecodeResult.cp, DecodeResult.len, DecodeResult.isOk]

theorem drive_raise (s : State) (e : ErrorKind) : s.drive (.raise e) = failed s (errCode e) := by cases e <;> rfl

/-- No error has the code of success (R14). -/
theorem errCode_ne_zero (e : ErrorKind) : errCode e ≠ 0 := by cases e <;> decide

/-- The codes tell the kinds apart (R14). -/
theorem errCode_injective (e f : ErrorKind) (h : errCode e = errCode f) : e = f := by
  cases e <;> cases f <;> first | rfl | exact absurd h (by decide)

end Sys2Proof.Machine
end

