-- ==== Sys2Proof/Laws/PerInstr.lean ====
section
/-! SUPPORT. Statements about every instruction as syntax, one lemma per constructor. `RowPattern`: the word of a
well-formed instruction has the mask and match of its row of spec/opcode_table.json. -/

namespace Sys2Proof.Laws

/-- A mask within the lead byte sees the lead byte only. -/
theorem packRequest_and_leadMask (len : LenField) (b0 : Byte) (t : Tail) (m : Byte) :
    packRequest len b0 t &&& m.setWidth 43 = (b0 &&& m).setWidth 43 := by
  apply BitVec.eq_of_getLsbD_eq
  intro i hi
  have h : (packRequest len b0 t).getLsbD i = if i < 8 then b0.getLsbD i
      else (len ++ t.b4 ++ t.b3 ++ t.b2 ++ t.b1).getLsbD (i - 8) := by
    unfold packRequest; rw [BitVec.getLsbD_append]
  simp only [BitVec.getLsbD_and, BitVec.getLsbD_setWidth, h]
  by_cases h8 : i < 8
  · simp [h8, hi]
  · simp [h8, BitVec.getLsbD_of_ge m i (by omega)]

/-- The mask of the length field sees the length field only. -/
theorem packRequest_and_lenMask (b0 : Byte) (t : Tail) :
    packRequest 0 b0 t &&& 0x70000000000 = 0 := by
  have e : (0x70000000000 : Req) = packRequest 7 0 ⟨0, 0, 0, 0⟩ := by decide
  rw [e]
  apply BitVec.eq_of_getLsbD_eq
  intro i hi
  unfold packRequest
  simp only [BitVec.getLsbD_and, BitVec.getLsbD_append]
  split_ifs <;> simp

/-- The word of `i` matches the row of `i`. -/
def RowPattern.Statement (i : Instr) : Prop :=
  i.wellFormed = true → encode i &&& i.rowMask = i.rowMatch

theorem RowPattern.empty (b0 : Byte) (t : Tail) : RowPattern.Statement (.empty b0 t) :=
  fun _ => packRequest_and_lenMask b0 t

theorem RowPattern.dec1 (len : LenField) (p : BitVec 7) (t : Tail) : RowPattern.Statement (.dec1 len p t) := by
  intro _
  have h : ∀ p : BitVec 7, ((0b0#1 ++ p : Byte) &&& 0x80).setWidth 43 = (0 : Req) := by decide
  exact (packRequest_and_leadMask len _ t 0x80).trans (h p)

theorem RowPattern.badleadCont (len : LenField) (p : BitVec 6) (t : Tail) :
    RowPattern.Statement (.badleadCont len p t) := by
  intro _
  have h : ∀ p : BitVec 6, ((0b10#2 ++ p : Byte) &&& 0xC0).setWidth 43 = (0x80 : Req) := by decide
  exact (packRequest_and_leadMask len _ t 0xC0).trans (h p)

theorem RowPattern.dec2 (len : LenField) (p : BitVec 5) (t : Tail) : RowPattern.Statement (.dec2 len p t) := by
  intro _
  have h : ∀ p : BitVec 5, ((0b110#3 ++ p : Byte) &&& 0xE0).setWidth 43 = (0xC0 : Req) := by decide
  exact (packRequest_and_leadMask len _ t 0xE0).trans (h p)

theorem RowPattern.dec3 (len : LenField) (p : BitVec 4) (t : Tail) : RowPattern.Statement (.dec3 len p t) := by
  intro _
  have h : ∀ p : BitVec 4, ((0b1110#4 ++ p : Byte) &&& 0xF0).setWidth 43 = (0xE0 : Req) := by decide
  exact (packRequest_and_leadMask len _ t 0xF0).trans (h p)

theorem RowPattern.dec4 (len : LenField) (p : BitVec 3) (t : Tail) : RowPattern.Statement (.dec4 len p t) := by
  intro _
  have h : ∀ p : BitVec 3, ((0b11110#5 ++ p : Byte) &&& 0xF8).setWidth 43 = (0xF0 : Req) := by decide
  exact (packRequest_and_leadMask len _ t 0xF8).trans (h p)

theorem RowPattern.badleadHigh (len : LenField) (p : BitVec 3) (t : Tail) :
    RowPattern.Statement (.badleadHigh len p t) := by
  intro _
  have h : ∀ p : BitVec 3, ((0b11111#5 ++ p : Byte) &&& 0xF8).setWidth 43 = (0xF8 : Req) := by decide
  exact (packRequest_and_leadMask len _ t 0xF8).trans (h p)

end Sys2Proof.Laws
end

