-- ==== Sys2Proof/Tests/Slice0.lean ====
section
/-! SUPPORT. The model's own tests. Expected results are the spec's: its vectors (spec/95_test_vectors.md) and words
written out from its encodings. Then, for each statement with hypotheses, a concrete state that meets them. -/

namespace Sys2Proof.Tests
open Sys2Proof.Machine

/-- No lane after the lead byte. -/
def noTail : Tail := ⟨0, 0, 0, 0⟩

/-- A state of this hardware with the given window. -/
def window (len : LenField) (b0 b1 b2 b3 b4 : Byte) : State := State.reset.present len b0 ⟨b1, b2, b3, b4⟩

/-- The response word after one step on a request. -/
def responseOf (s : State) (r : Req) : Option Resp :=
  match step (s.presentRequest r) with
  | .next t => some t.response
  | .fault _ => none
  | .refused _ => none

/-- Each request word is answered with the response word beside it, by one step from reset. -/
def agrees (rows : List (Req × Resp)) : Bool := rows.all fun v => responseOf State.reset v.1 == some v.2

/-! ### WellFormed refuses a lead-byte class with `in_len` = 0 (R40) -/

theorem test_wellFormed_refuses_dec1 : (Instr.dec1 0 0x41 noTail).wellFormed = false := by decide
theorem test_wellFormed_refuses_badleadCont : (Instr.badleadCont 0 0 noTail).wellFormed = false := by decide
theorem test_wellFormed_refuses_dec2 : (Instr.dec2 0 2 noTail).wellFormed = false := by decide
theorem test_wellFormed_refuses_dec3 : (Instr.dec3 0 2 noTail).wellFormed = false := by decide
theorem test_wellFormed_refuses_dec4 : (Instr.dec4 0 0 noTail).wellFormed = false := by decide
theorem test_wellFormed_refuses_badleadHigh : (Instr.badleadHigh 0 0 noTail).wellFormed = false := by decide

/-! ### Decoding: words written bit by bit from R32, R34 and R35 (`in_len`, b4, b3, b2, b1, b0) -/

theorem test_decode_empty : decodeReq 0b000_00000000_00000000_00000000_10000000_11000010 =
    .empty 0xC2 ⟨0x80, 0, 0, 0⟩ := by decide
theorem test_decode_dec1 : decodeReq 0b001_00000000_00000000_00000000_00000000_01000001 =
    .dec1 1 0b1000001 noTail := by decide
theorem test_decode_badleadCont : decodeReq 0b001_00000000_00000000_00000000_00000000_10111110 =
    .badleadCont 1 0b111110 noTail := by decide
theorem test_decode_dec2 : decodeReq 0b010_00000000_00000000_00000000_10101001_11000010 =
    .dec2 2 0b00010 ⟨0xA9, 0, 0, 0⟩ := by decide
theorem test_decode_dec3 : decodeReq 0b011_00000000_00000000_10101100_10000010_11100010 =
    .dec3 3 0b0010 ⟨0x82, 0xAC, 0, 0⟩ := by decide
theorem test_decode_dec4 : decodeReq 0b101_01000001_10000000_10011000_10011111_11110000 =
    .dec4 5 0b000 ⟨0x9F, 0x98, 0x80, 0x41⟩ := by decide
theorem test_decode_badleadHigh : decodeReq 0b111_00000000_00000000_00000000_00000000_11111101 =
    .badleadHigh 7 0b101 noTail := by decide

/-- R32: a number wider than 43 bits is no request. -/
theorem test_decode_rejects_wider : decodeWord 0x80000000000 = .error .widerThanRequest := by decide

/-- R34: the lead-byte rows of the opcode table are exclusive and, with one of them, exhaustive. -/
theorem test_lead_rows_are_exclusive : ∀ b : Byte,
    ([(0x80, 0x00), (0xC0, 0x80), (0xE0, 0xC0), (0xF0, 0xE0), (0xF8, 0xF0), (0xF8, 0xF8)].filter
      fun (m : Byte × Byte) => b &&& m.1 == m.2).length = 1 := by decide

/-- The table's words: seven rows, one instruction each (log 10). -/
theorem test_tableWords : decodeTableWord 48 0 = some (.empty 0 noTail) ∧
    decodeTableWord 8 0x00 = some (.dec1 1 0 noTail) ∧ decodeTableWord 8 0x80 = some (.badleadCont 1 0 noTail) ∧
    decodeTableWord 8 0xC0 = some (.dec2 1 0 noTail) ∧ decodeTableWord 16 0x80C2 = some (.dec2 2 2 ⟨0x80, 0, 0, 0⟩) ∧
    decodeTableWord 8 0xE0 = some (.dec3 1 0 noTail) ∧ decodeTableWord 8 0xF0 = some (.dec4 1 0 noTail) ∧
    decodeTableWord 8 0xF8 = some (.badleadHigh 1 0 noTail) := by decide

/-! ### The spec's vectors: request word, response word, one step each -/

/-- spec/95_test_vectors.md section 1.1: the examples of the source itself (S1 to S8). -/
theorem test_vectors_source : agrees
   [(0x00000000000, 0x10000000000), (0x200000080C0, 0x50000000000), (0x300008080E0, 0x50000000000),
    (0x3000080A0ED, 0x60000000000), (0x400808090F4, 0x70000000000), (0x200000041C2, 0x40000000000),
    (0x200000082E2, 0x30000000000), (0x10000000041, 0x00100000041)] = true := by
  decide

/-- spec/95_test_vectors.md section 2.1. -/
theorem test_vectors_empty : agrees
   [(0x00000000000, 0x10000000000)] = true := by
  decide

/-- spec/95_test_vectors.md section 2.2. -/
theorem test_vectors_dec1 : agrees
   [(0x10000000000, 0x00100000000), (0x10000000041, 0x00100000041), (0x1000000007F, 0x0010000007F),
    (0x20000008041, 0x00100000041), (0x20000004241, 0x00100000041), (0x5BFBFBFBF7F, 0x0010000007F)] = true := by
  decide

/-- spec/95_test_vectors.md section 2.3. -/
theorem test_vectors_dec2 : agrees
   [(0x200000080C2, 0x00200000080), (0x2000000A9C2, 0x002000000A9), (0x2000000BFDF, 0x002000007FF),
    (0x200000080C0, 0x50000000000), (0x2000000BFC1, 0x50000000000), (0x100000000C0, 0x30000000000),
    (0x100000000C2, 0x30000000000), (0x200000041C0, 0x40000000000), (0x200000041C2, 0x40000000000),
    (0x2000000C0C2, 0x40000000000), (0x3000080A9C2, 0x30000000000), (0x3000041A9C2, 0x002000000A9),
    (0x30000C2A9C2, 0x002000000A9), (0x30000FFA9C2, 0x002000000A9), (0x300008080C0, 0x50000000000)] = true := by
  decide

/-- spec/95_test_vectors.md section 2.4. -/
theorem test_vectors_dec3 : agrees
   [(0x3000080A0E0, 0x00300000800), (0x30000BF9FE0, 0x50000000000), (0x30000AC82E2, 0x003000020AC),
    (0x30000BF9FED, 0x0030000D7FF), (0x3000080A0ED, 0x60000000000), (0x30000BFBFED, 0x60000000000),
    (0x300008080EE, 0x0030000E000), (0x30000BFBFEF, 0x0030000FFFF), (0x100000000E2, 0x30000000000),
    (0x200000082E2, 0x30000000000), (0x200000041E2, 0x30000000000), (0x30000AC41E2, 0x40000000000),
    (0x300004182E2, 0x40000000000), (0x40080AC82E2, 0x30000000000), (0x40041AC82E2, 0x003000020AC),
    (0x4008080A0ED, 0x30000000000), (0x400808080E0, 0x50000000000)] = true := by
  decide

/-- spec/95_test_vectors.md section 2.5. -/
theorem test_vectors_dec4 : agrees
   [(0x400808090F0, 0x00400010000), (0x400BFBF8FF0, 0x50000000000), (0x40080A08DF0, 0x50000000000),
    (0x40080989FF0, 0x0040001F600), (0x400808080F1, 0x00400040000), (0x400BFBFBFF3, 0x004000FFFFF),
    (0x400BFBF8FF4, 0x0040010FFFF), (0x400808090F4, 0x70000000000), (0x400808080F5, 0x70000000000),
    (0x400BFBFBFF7, 0x70000000000), (0x30000989FF0, 0x30000000000), (0x40041989FF0, 0x40000000000),
    (0x58080989FF0, 0x30000000000), (0x54180989FF0, 0x0040001F600), (0x580808090F4, 0x30000000000),
    (0x74180989FF0, 0x0040001F600), (0x78080989FF0, 0x30000000000)] = true := by
  decide

/-- spec/95_test_vectors.md section 2.6. -/
theorem test_vectors_badlead : agrees
   [(0x10000000080, 0x20000000000), (0x100000000BF, 0x20000000000), (0x20000008080, 0x20000000000),
    (0x100000000F8, 0x20000000000), (0x100000000FF, 0x20000000000), (0x580808080FE, 0x20000000000)] = true := by
  decide

/-- spec/95_test_vectors.md section 2.9: don't-care lanes and saturated lengths. -/
theorem test_vectors_window : agrees
   [(0x000000000C2, 0x10000000000), (0x0808080A9C2, 0x10000000000), (0x100000000C2, 0x30000000000),
    (0x180808080C2, 0x30000000000), (0x2000000A9C2, 0x002000000A9), (0x2808080A9C2, 0x002000000A9),
    (0x48080989FF0, 0x0040001F600), (0x58080989FF0, 0x30000000000), (0x68080989FF0, 0x30000000000),
    (0x78080989FF0, 0x30000000000), (0x54180989FF0, 0x0040001F600), (0x74180989FF0, 0x0040001F600)] = true := by
  decide

/-- spec/95_test_vectors.md section 2.8, `cfg_strict_trailing` = 0 (decision D7). -/
theorem test_vectors_mode_off :
    [((0x3000080A9C2 : Req), (0x002000000A9 : Resp)), (0x40080AC82E2, 0x003000020AC), (0x58080989FF0, 0x0040001F600),
     (0x580808090F4, 0x70000000000)].all
      (fun v => responseOf { State.reset with cfgStrictTrailing := false } v.1 == some v.2) = true := by decide

/-- spec/95_test_vectors.md section 2.8, `P_TRAIL_ASCII` = 1 (decision D8). -/
theorem test_trailAscii_variant :
    dec1 ⟨true, true⟩ true 2 0x41 ⟨0x80, 0, 0, 0⟩ = .raise .invalidLength ∧
    dec1 ⟨true, true⟩ true 2 0x41 ⟨0x42, 0, 0, 0⟩ = .ok 0x41 1 := by decide

/-- spec/95_test_vectors.md section 2.8, `P_TRAIL_BEFORE_RANGE` = 0 (decision D6). -/
theorem test_trailBeforeRange_variant :
    dec3 ⟨false, false⟩ true 4 0xD ⟨0xA0, 0x80, 0x80, 0⟩ = .raise .surrogateHalf ∧
    dec4 ⟨false, false⟩ true 5 0x4 ⟨0x90, 0x80, 0x80, 0x80⟩ = .raise .tooLarge := by decide

/-- spec/95_test_vectors.md section 2.10: the predicates. -/
theorem test_predicates :
    [(0x00, false, some 1), (0x7F, false, some 1), (0x80, true, none), (0xBF, true, none), (0xC0, false, some 2),
     (0xC1, false, some 2), (0xDF, false, some 2), (0xE0, false, some 3), (0xEF, false, some 3), (0xF0, false, some 4),
     (0xF7, false, some 4), (0xF8, false, none), (0xFF, false, none)].all
      (fun (v : Byte × Bool × Option Nat) => isCont v.1 == v.2.1 && leadClass v.1 == v.2.2) = true := by decide

/-- R55 on the boundary values of R44's table: the bytes the spec's vectors give. -/
theorem test_encodeMinimal :
    encodeMinimal 0x7F = [0x7F] ∧ encodeMinimal 0x80 = [0xC2, 0x80] ∧ encodeMinimal 0x7FF = [0xDF, 0xBF] ∧
    encodeMinimal 0x800 = [0xE0, 0xA0, 0x80] ∧ encodeMinimal 0xFFFF = [0xEF, 0xBF, 0xBF] ∧
    encodeMinimal 0x10000 = [0xF0, 0x90, 0x80, 0x80] ∧ encodeMinimal 0x10FFFF = [0xF4, 0x8F, 0xBF, 0xBF] := by decide

/-- R24 with vectors of sections 2.4 and 2.5: the document's `decode` on byte sequences, one longer than the window. -/
theorem test_decodeBytes :
    decodeBytes hardware true [0xED, 0xA0, 0x80] = .raise .surrogateHalf ∧
    decodeBytes hardware true [0xE0, 0x80, 0x80, 0x80] = .raise .overlong ∧
    decodeBytes hardware true [0xF0, 0x9F, 0x98, 0x80, 0x41, 0x42, 0x43, 0x44] = .ok 0x1F600 4 := by decide

/-! ### Witnesses: for each statement with hypotheses, inputs that meet them -/

theorem witness_DecodeEncodeRoundTrip : (Instr.dec4 7 0x7 ⟨0xBF, 0x80, 0xFF, 0x00⟩).wellFormed = true := by decide

theorem witness_OnlyWiderNumbersAreRejected : 0x7FFFFFFFFFF < 2 ^ 43 ∧ 2 ^ 43 ≤ 0x80000000000 := by decide

/-- Both ends of every range of R35, and the empty request. -/
theorem witness_ClassFollowsLeadByteRange :
    reqLen 0x000000000C2 = 0 ∧ ([0x00, 0x7F, 0x80, 0xBF, 0xC0, 0xDF, 0xE0, 0xEF, 0xF0, 0xF7, 0xF8, 0xFF].all
      fun b => reqLen (packRequest 1 (BitVec.ofNat 8 b) noTail) != 0 &&
        (reqByte 0 (packRequest 1 (BitVec.ofNat 8 b) noTail)).toNat == b) = true := by decide

theorem witness_StepRunsThePresentedInstruction :
    (Instr.dec2 2 2 ⟨0xA9, 0, 0, 0⟩).wellFormed = true ∧
    (window 2 0xC2 0xA9 0 0 0).request = encode (.dec2 2 2 ⟨0xA9, 0, 0, 0⟩) := by decide

theorem witness_StepRunsTheTableWord :
    decodeTableWord 16 0xA9C2 = some (.dec2 2 2 ⟨0xA9, 0, 0, 0⟩) ∧
    decodeTableWord 48 0x20000000041 = some (.dec1 2 0x41 noTail) := by decide

theorem witness_OverlongMeansBelowTheMinimum : IsContByte 0x80 ∧ IsContByte 0xBF := by decide

/-- R74: a value that is overlong and a surrogate, and one that is not overlong, both of continuation bytes. -/
theorem witness_ValueChecksExcludeEachOther :
    (0x7F : Byte).toNat < 0x80 ∧ IsContByte 0x8D ∧ IsContByte 0xA0 ∧
    overlong 4 0xF0 0x8D (assemble4 0 0x8D 0xA0 0x80) = true ∧ surrogate (assemble4 0 0x8D 0xA0 0x80) = true ∧
    overlong 4 0xF0 0x90 (assemble4 0 0x90 0x80 0x80) = false := by decide

theorem witness_ZeroLengthIsEmptyInput :
    (window 0 0xC2 0xA9 0x80 0x80 0x80).inLen = 0 ∧ (window 1 0x41 0 0 0 0).inLen ≠ 0 := by decide

/-- Both ends of each range of R42. -/
theorem witness_SomeLeadsNeverSucceed :
    InRange 0xC0 0xC1 (window 2 0xC0 0x80 0 0 0).inByte[0] ∧ InRange 0xC0 0xC1 (window 2 0xC1 0xBF 0 0 0).inByte[0] ∧
    InRange 0xF5 0xF7 (window 4 0xF5 0x80 0x80 0x80 0).inByte[0] ∧
    InRange 0xF5 0xF7 (window 4 0xF7 0xBF 0xBF 0xBF 0).inByte[0] ∧
    ((window 3 0xE0 0x80 0x80 0 0).inByte[0] = 0xE0 ∧ InRange 0x80 0x9F (window 3 0xE0 0x9F 0xBF 0 0).inByte[1]) ∧
    ((window 3 0xED 0xA0 0x80 0 0).inByte[0] = 0xED ∧ InRange 0xA0 0xBF (window 3 0xED 0xBF 0xBF 0 0).inByte[1]) ∧
    ((window 4 0xF0 0x80 0x80 0x80 0).inByte[0] = 0xF0 ∧ InRange 0x80 0x8F (window 4 0xF0 0x8F 0xBF 0xBF 0).inByte[1]) ∧
    ((window 4 0xF4 0x90 0x80 0x80 0).inByte[0] = 0xF4 ∧ InRange 0x90 0xBF (window 4 0xF4 0xBF 0xBF 0xBF 0).inByte[1]) := by
  decide

/-- Every row of R44 at one boundary, alone or followed by no continuation byte. -/
theorem witness_AcceptedSetIsTheTable :
    AcceptedWindow (window 1 0x7F 0 0 0 0) 1 ∧ AcceptedWindow (window 2 0xC2 0x80 0 0 0) 2 ∧
    AcceptedWindow (window 3 0xE0 0xA0 0x80 0 0) 3 ∧ AcceptedWindow (window 4 0xE1 0x80 0x80 0x41 0) 3 ∧
    AcceptedWindow (window 3 0xED 0x9F 0xBF 0 0) 3 ∧ AcceptedWindow (window 3 0xEF 0xBF 0xBF 0 0) 3 ∧
    AcceptedWindow (window 4 0xF0 0x90 0x80 0x80 0) 4 ∧ AcceptedWindow (window 5 0xF3 0xBF 0xBF 0xBF 0x41) 4 ∧
    AcceptedWindow (window 4 0xF4 0x8F 0xBF 0xBF 0) 4 := by
  refine ⟨?_, ?_, ?_, ?_, ?_, ?_, ?_, ?_, ?_⟩ <;> refine ⟨by decide, by unfold AcceptedRow; decide, ?_⟩ <;> decide

/-- One success and one failure. -/
theorem witness_ResponseWordPacksTheOutcome :
    responseOf State.reset 0x30000AC82E2 = some 0x003000020AC ∧ responseOf State.reset 0x200000041C2 = some 0x40000000000 := by
  decide

/-- Three present bytes, different lanes beyond (P5 of the spec's programs). -/
theorem witness_OutputsDependOnPresentBytesOnly :
    let s := window 3 0xE2 0x82 0xAC 0x80 0x80
    let s' := window 3 0xE2 0x82 0xAC 0xFF 0x41
    s.inLen = s'.inLen ∧ s.cfgStrictTrailing = s'.cfgStrictTrailing ∧ s.inByte ≠ s'.inByte ∧
    ∀ (i : Nat) (_ : i < 5), i < s.inLen.toNat → s.inByte[i] = s'.inByte[i] := by decide

/-- Two windows of different length, one followed by ASCII and one by a lead byte, that agree on what R62 names; and two
empty ones. -/
theorem witness_DependenceBound :
    AgreeOnDependences (window 3 0xC2 0xA9 0x41 0x80 0) (window 6 0xC2 0xA9 0xFF 0 0) ∧
    AgreeOnDependences (window 0 0x41 0 0 0 0) (window 0 0xFF 1 2 3 4) := by
  constructor
  · refine ⟨rfl, .inr ⟨by decide, by decide, rfl, fun n hn _ => ?_⟩⟩
    have h2 : leadClass 0xC2 = some 2 := by decide
    obtain rfl : n = 2 := Option.some.inj (hn.symm.trans h2)
    clear hn
    decide
  · exact ⟨rfl, .inl ⟨rfl, rfl⟩⟩

theorem witness_LengthsFiveToSevenAreAlike :
    5 ≤ (window 5 0xF0 0x9F 0x98 0x80 0x80).inLen.toNat ∧ 5 ≤ (7 : LenField).toNat := by decide

theorem witness_RepeatedRequestSameOutcome :
    SameInputs (window 1 0x41 0 0 0 0) ((window 1 0x41 0 0 0 0).drive (.ok 0x20AC 3)) := ⟨rfl, rfl, rfl⟩

theorem witness_FirstDecodeAfterResetIsLikeEveryOther :
    ((window 3 0xE2 0x82 0xAC 0 0).drive (.raise .overlong)).cfgStrictTrailing = true := by decide

theorem witness_ModeOffReturnsTheValidatedPrefix :
    let s := { window 5 0xF0 0x9F 0x98 0x80 0x80 with cfgStrictTrailing := false }
    s.cfgStrictTrailing = false ∧ leadClass s.inByte[0] = some 4 ∧ 4 ≤ s.inLen.toNat := by decide

/-- Inputs on which the order matters, and on which it does not. -/
theorem witness_TrailOrderChangesOnlyTheKind :
    decodeBytes ⟨false, true⟩ true [0xED, 0xA0, 0x80, 0x80] ≠ decodeBytes ⟨false, false⟩ true [0xED, 0xA0, 0x80, 0x80] ∧
    (decodeBytes ⟨false, true⟩ true [0xC2, 0xA9]).isOk = true := by decide

theorem witness_TrailAsciiChangesOnlyOneByteSequences :
    decodeBytes ⟨false, true⟩ true [0x41, 0x80] ≠ decodeBytes ⟨true, true⟩ true [0x41, 0x80] := by decide

/-- A sequence of eight bytes on a window that shows five, and a two-byte one with other values beyond it. -/
theorem witness_WindowDecodeEqualsSequenceDecode :
    Presents (window 7 0xF0 0x9F 0x98 0x80 0x41) [0xF0, 0x9F, 0x98, 0x80, 0x41, 0x42, 0x43, 0x44] ∧
    Presents (window 2 0xC2 0xA9 0x80 0x80 0x80) [0xC2, 0xA9] := by
  constructor <;> refine ⟨by decide, ?_⟩ <;> decide

/-- A success of each length, so the law of R55 has a case. -/
theorem witness_SuccessReencodesToConsumedBytes :
    responseOf State.reset 0x1000000007F = some 0x0010000007F ∧ responseOf State.reset 0x200000080C2 = some 0x00200000080 ∧
    responseOf State.reset 0x30000BFBFEF = some 0x0030000FFFF ∧ responseOf State.reset 0x400BFBF8FF4 = some 0x0040010FFFF := by
  decide

theorem witness_EveryValidCodePointDecodes :
    (0x10FFFF : CodePoint).toNat ≤ 0x10FFFF ∧ ¬ IsSurrogateValue (0x10FFFF : CodePoint).toNat ∧
    (∀ b ∈ ([0x41] : List Byte).head?, ¬ IsContByte b) ∧
    Presents (window 5 0xF4 0x8F 0xBF 0xBF 0x41) (encodeMinimal 0x10FFFF ++ [0x41]) := by
  refine ⟨by decide, by decide, by simp, by decide, ?_⟩
  decide

/-- The state after one decode of a three-byte sequence has the invariant, and so has its next. -/
theorem witness_StepKeepsTheInvariant :
    Inv ((window 3 0xE2 0x82 0xAC 0 0).drive (.ok 0x20AC 3)) ∧
    step ((window 3 0xE2 0x82 0xAC 0 0).drive (.ok 0x20AC 3)) = .next ((window 3 0xE2 0x82 0xAC 0 0).drive (.ok 0x20AC 3)) := by
  refine ⟨⟨rfl, by unfold OutputsLegal; decide, by unfold Settled; decide⟩, rfl⟩

end Sys2Proof.Tests
end

section
/-! ### The outcome of an instruction, and the legality of every outcome (spec/10_state.md R14 to R18) -/

namespace Sys2Proof.Machine

/-- The result that `exec` drives for an instruction (R46 to R52; tied to it by `exec_eq_drive_outcome`). -/
def outcome (P : Params) (strict : Bool) : Instr → DecodeResult
  | .empty _ _ => empty
  | .dec1 len p t => dec1 P strict len p t
  | .badleadCont _ _ _ => badleadCont
  | .dec2 len p t => dec2 strict len p t
  | .dec3 len p t => dec3 P strict len p t
  | .dec4 len p t => dec4 P strict len p t
  | .badleadHigh _ _ _ => badleadHigh

/-- All that an instruction can do: it drives its outcome, under the mode of the state it starts in. -/
theorem exec_eq_drive_outcome (i : Instr) (s : State) :
    exec i s = .next (s.drive (outcome hardware s.cfgStrictTrailing i)) := by cases i <;> rfl

/-- All that a step can do: it drives the outcome of the instruction on the pins. -/
theorem step_eq_drive_outcome (s : State) :
    step s = .next (s.drive (outcome hardware s.cfgStrictTrailing (decodeReq s.request))) :=
  exec_eq_drive_outcome _ s

/-! ### Legal results -/

/-- A code point and a length that a success may drive: a length of 1 to 4, and a value in range that is no surrogate
(R15, R16). -/
def LegalValue (cp : CodePoint) (n : OutLen) : Prop :=
  1 ≤ n.toNat ∧ n.toNat ≤ 4 ∧ cp.toNat ≤ 0x10FFFF ∧ ¬ IsSurrogateValue cp.toNat

/-- A result whose success, if it is one, has a legal value; a failure carries no value. -/
def DecodeResult.Legal (d : DecodeResult) : Prop := ∀ cp n, d = .ok cp n → LegalValue cp n

@[simp] theorem legal_raise (e : ErrorKind) : (DecodeResult.raise e).Legal := by
  intro cp n h
  cases h

@[simp] theorem legal_ok (cp : CodePoint) (n : OutLen) : (DecodeResult.ok cp n).Legal ↔ LegalValue cp n := by
  simp [DecodeResult.Legal]

/-- A check in front of an evaluation leaves the rest to be legal only where the check passes. -/
@[simp] theorem legal_ite_raise (c : Prop) [Decidable c] (e : ErrorKind) (d : DecodeResult) :
    (if c then .raise e else d : DecodeResult).Legal ↔ (¬ c → d.Legal) := by
  split_ifs with h <;> simp [h]

/-- Driving a legal result gives legal outputs: `out_ok`, and the zeros of a failure, are as R15, R16 and R18 say by the
way a result is driven (R54). -/
theorem outputsLegal_drive (s : State) {d : DecodeResult} (h : d.Legal) : OutputsLegal (s.drive d) := by
  refine ⟨?_, ?_, ?_⟩
  · simp [DecodeResult.isOk]
  · intro hErr
    cases d with
    | ok cp n => exact absurd rfl hErr
    | raise e => exact ⟨rfl, rfl⟩
  · intro hErr
    cases d with
    | ok cp n => exact h cp n rfl
    | raise e => exact absurd hErr (errCode_ne_zero e)

/-! ### Every class has a legal outcome, for both parameters and both modes -/

/-- R73: a lead byte of DEC1 is below 0x80. -/
theorem dec1_legal (P : Params) (strict : Bool) (len : LenField) (p : BitVec 7) (t : Tail) :
    (dec1 P strict len p t).Legal := by
  have hValue : (assemble1 (0b0#1 ++ p)).toNat = p.toNat := by
    simp only [assemble1, BitVec.truncate_eq_setWidth, BitVec.toNat_setWidth, toNat_append_eq, BitVec.toNat_ofNat]
    omega
  rw [dec1, legal_ite_raise, legal_ok, LegalValue, hValue]
  intro _
  refine ⟨by decide, by decide, ?_, ?_⟩ <;> omega

/-- R74: a two-byte value is at most 0x7FF. -/
theorem dec2_legal (strict : Bool) (len : LenField) (p : BitVec 5) (t : Tail) : (dec2 strict len p t).Legal := by
  simp only [dec2, legal_ite_raise, legal_ok, LegalValue, assemble2_toNat, value2]
  intros
  refine ⟨by decide, by decide, ?_, ?_⟩ <;> omega

/-- R71, R74: a three-byte value is at most 0xFFFF, and the surrogate check stands before the success. -/
theorem dec3_legal (P : Params) (strict : Bool) (len : LenField) (p : BitVec 4) (t : Tail) :
    (dec3 P strict len p t).Legal := by
  simp only [dec3, legal_ite_raise, legal_ok, LegalValue, surrogate_eq_decide, decide_eq_true_eq]
  intro _ _ _ _ hNotSurrogate _
  refine ⟨by decide, by decide, ?_, hNotSurrogate⟩
  rw [assemble3_toNat, value3]
  omega

/-- R71, R72: the surrogate check and the too-large check stand before the success. -/
theorem dec4_legal (P : Params) (strict : Bool) (len : LenField) (p : BitVec 3) (t : Tail) :
    (dec4 P strict len p t).Legal := by
  simp only [dec4, legal_ite_raise, legal_ok, LegalValue, surrogate_eq_decide, tooLarge_eq_decide, decide_eq_true_eq]
  intro _ _ _ _ hNotSurrogate hNotTooLarge _
  exact ⟨by decide, by decide, Nat.le_of_not_lt hNotTooLarge, hNotSurrogate⟩

theorem outcome_legal (P : Params) (strict : Bool) (i : Instr) : (outcome P strict i).Legal := by
  cases i with
  | empty b0 t => exact legal_raise _
  | dec1 len p t => exact dec1_legal P strict len p t
  | badleadCont len p t => exact legal_raise _
  | dec2 len p t => exact dec2_legal strict len p t
  | dec3 len p t => exact dec3_legal P strict len p t
  | dec4 len p t => exact dec4_legal P strict len p t
  | badleadHigh len p t => exact legal_raise _

/-- Settles O40: a step drives the outcome of the instruction on the pins, and every outcome is legal. -/
theorem outputsAreLegalAfterEveryStep : Obligations.OutputsAreLegalAfterEveryStep := by
  intro s
  exact ⟨_, step_eq_drive_outcome s, outputsLegal_drive s (outcome_legal _ _ _)⟩

end Sys2Proof.Machine
end

section
/-! ### The length field selects EMPTY (spec/30_encoding.md R40) -/

namespace Sys2Proof

/-- R40: a request of length 0 is EMPTY, before its lead byte is looked at. -/
theorem decodeReq_of_reqLen_eq_zero {r : Req} (h : reqLen r = 0) :
    decodeReq r = .empty (reqByte 0 r) (reqTail r) := if_pos h

/-- The decoder hands the length field on: as an operand of a lead-byte class, and as the 0 that EMPTY stands for. -/
@[simp] theorem lenField_decodeReq (r : Req) : (decodeReq r).lenField = reqLen r := by
  by_cases hLen : reqLen r = 0
  · rw [decodeReq_of_reqLen_eq_zero hLen, hLen]
    rfl
  · unfold decodeReq
    rw [if_neg hLen]
    split_ifs <;> rfl

end Sys2Proof

namespace Sys2Proof.Machine

/-! ### The fields of the request on the pins (spec/30_encoding.md R32) -/

@[simp] theorem reqLen_request (s : State) : reqLen s.request = s.inLen := reqLen_packRequest _ _ _

@[simp] theorem reqByte_zero_request (s : State) : reqByte 0 s.request = s.inByte[0] :=
  reqByte_zero_packRequest _ _ _

@[simp] theorem reqTail_request (s : State) : reqTail s.request = s.tail := reqTail_packRequest _ _ _

/-- R40 on the pins: no byte present is EMPTY, whatever the lanes hold. -/
theorem decodeReq_request_of_inLen_eq_zero {s : State} (h : s.inLen = 0) :
    decodeReq s.request = .empty s.inByte[0] s.tail := by
  simpa using decodeReq_of_reqLen_eq_zero ((reqLen_request s).trans h)

/-- R46: EMPTY on the pins drives `EmptyInput`. -/
theorem step_of_decodeReq_eq_empty {s : State} {b0 : Byte} {t : Tail} (h : decodeReq s.request = .empty b0 t) :
    step s = .next (failed s 1) := by
  have hOutcome : outcome hardware s.cfgStrictTrailing (.empty b0 t) = .raise .emptyInput := rfl
  rw [step_eq_drive_outcome, h, hOutcome, drive_raise, errCode]

/-- R40, the other side: EMPTY on the pins means that no byte is present. -/
theorem inLen_eq_zero_of_decodeReq_eq_empty {s : State} {b0 : Byte} {t : Tail}
    (h : decodeReq s.request = .empty b0 t) : s.inLen = 0 :=
  calc s.inLen = (decodeReq s.request).lenField := by simp
    _ = (Instr.empty b0 t).lenField := by rw [h]
    _ = 0 := rfl

/-- Settles O21: the decoder tests the length field first, and an EMPTY that it answers stands for a length field of 0. -/
theorem zeroLengthIsEmptyInput : Obligations.ZeroLengthIsEmptyInput := by
  intro s
  constructor
  · intro hZero
    have hEmpty := decodeReq_request_of_inLen_eq_zero hZero
    exact ⟨hEmpty, step_of_decodeReq_eq_empty hEmpty⟩
  · intro hNonzero b0 t hEmpty
    exact hNonzero (inLen_eq_zero_of_decodeReq_eq_empty hEmpty)

end Sys2Proof.Machine
end

section
/-! ### The classes that always raise (spec/40_decoder.md R46, R51, R52) -/

namespace Sys2Proof.Machine

/-- R54: an instruction whose outcome is an error drives the error's code and zeros, and changes nothing else. -/
theorem exec_of_outcome_eq_raise {i : Instr} {s : State} {e : ErrorKind}
    (h : outcome hardware s.cfgStrictTrailing i = .raise e) : exec i s = .next (failed s (errCode e)) := by
  rw [exec_eq_drive_outcome, h, drive_raise]

/-- Settles O8: the outcome of EMPTY is `EmptyInput`, whose code is 1, and no lane enters it. -/
theorem emptyRaisesEmptyInput : Obligations.EmptyRaisesEmptyInput := by
  intro b0 t s
  have hOutcome : outcome hardware s.cfgStrictTrailing (.empty b0 t) = .raise .emptyInput := rfl
  exact exec_of_outcome_eq_raise hOutcome

/-- Settles O10: the outcome of BADLEAD_CONT is `InvalidLeadByte`, whose code is 2, and no operand enters it. -/
theorem badleadContRaisesInvalidLeadByte : Obligations.BadleadContRaisesInvalidLeadByte := by
  intro len p t s
  have hOutcome : outcome hardware s.cfgStrictTrailing (.badleadCont len p t) = .raise .invalidLeadByte := rfl
  exact exec_of_outcome_eq_raise hOutcome

/-- Settles O11: the outcome of BADLEAD_HIGH is `InvalidLeadByte`, whose code is 2, and no operand enters it. -/
theorem badleadHighRaisesInvalidLeadByte : Obligations.BadleadHighRaisesInvalidLeadByte := by
  intro len p t s
  have hOutcome : outcome hardware s.cfgStrictTrailing (.badleadHigh len p t) = .raise .invalidLeadByte := rfl
  exact exec_of_outcome_eq_raise hOutcome

end Sys2Proof.Machine
end

section
/-! ### The byte tests as ranges (spec/41_byte_pattern_validator.md R56, R57) -/

namespace Sys2Proof.Machine

/-- R56: the continuation-byte test is true on one range. -/
theorem isCont_iff (c : Byte) : isCont c = true ↔ IsContByte c := by rw [isCont_eq_decide, decide_eq_true_eq]

/-- The mask that keeps the bits from `k` up clears those below it. -/
theorem and_allOnes_shiftLeft {w : Nat} (x : BitVec w) (k : Nat) :
    x &&& BitVec.allOnes w <<< k = x >>> k <<< k := by
  ext i hi
  by_cases hBelow : i < k
  · simp [hBelow]
  · have hIndex : k + (i - k) = i := by omega
    simp [hBelow, hIndex, BitVec.getLsbD_eq_getElem hi]

/-- A test of the bits from `k` up compares the multiple of `2 ^ k` at or below the byte. -/
theorem and_allOnes_shiftLeft_eq_iff (c v : Byte) (k : Nat) :
    c &&& BitVec.allOnes 8 <<< k = v ↔ c.toNat / 2 ^ k * 2 ^ k = v.toNat := by
  have hBound : c.toNat / 2 ^ k * 2 ^ k < 2 ^ 8 := (Nat.div_mul_le_self _ _).trans_lt c.isLt
  rw [and_allOnes_shiftLeft, ← BitVec.toNat_inj, BitVec.toNat_shiftLeft, BitVec.toNat_ushiftRight,
    Nat.shiftRight_eq_div_pow, Nat.shiftLeft_eq, Nat.mod_eq_of_lt hBound]

/-- R57: the pattern `110xxxxx`. -/
theorem and_E0_eq_C0_iff (c : Byte) : c &&& 0xE0 = 0xC0 ↔ 0xC0 ≤ c.toNat ∧ c.toNat ≤ 0xDF :=
  (and_allOnes_shiftLeft_eq_iff c 0xC0 5).trans (by simp; omega)

/-- R57: the pattern `1110xxxx`. -/
theorem and_F0_eq_E0_iff (c : Byte) : c &&& 0xF0 = 0xE0 ↔ 0xE0 ≤ c.toNat ∧ c.toNat ≤ 0xEF :=
  (and_allOnes_shiftLeft_eq_iff c 0xE0 4).trans (by simp; omega)

/-- R57: the pattern `11110xxx`. -/
theorem and_F8_eq_F0_iff (c : Byte) : c &&& 0xF8 = 0xF0 ↔ 0xF0 ≤ c.toNat ∧ c.toNat ≤ 0xF7 :=
  (and_allOnes_shiftLeft_eq_iff c 0xF0 3).trans (by simp; omega)

/-- R57: the classifier's tests, in their order, as ranges of the byte. -/
theorem leadClass_eq_ranges (c : Byte) :
    leadClass c =
      if c.toNat < 0x80 then some 1
      else if 0xC0 ≤ c.toNat ∧ c.toNat ≤ 0xDF then some 2
      else if 0xE0 ≤ c.toNat ∧ c.toNat ≤ 0xEF then some 3
      else if 0xF0 ≤ c.toNat ∧ c.toNat ≤ 0xF7 then some 4
      else none := by
  have hAscii : c < 0x80 ↔ c.toNat < 0x80 := Iff.rfl
  simp only [leadClass, hAscii, and_E0_eq_C0_iff, and_F0_eq_E0_iff, and_F8_eq_F0_iff]

/-- Settles O15: with each mask test as a range, the ranges of the four lengths are disjoint, and the bytes outside them
are the continuation bytes and those from 0xF8 up. -/
theorem patternTestsMatchTheirRanges : Obligations.PatternTestsMatchTheirRanges := by
  intro c
  refine ⟨isCont_iff c, ?_⟩
  rw [leadClass_eq_ranges]
  split_ifs with h1 h2 h3 h4 <;> simp <;> omega

end Sys2Proof.Machine
end

section
/-! ### Assembly by shifts (spec/42_codepoint_assembler.md R63, R65 to R67) -/

namespace Sys2Proof.Machine

/-- A mask of the low `k` bits keeps a byte's remainder modulo `2 ^ k`. -/
theorem and_lowMask_toNat (b : Byte) {k : Nat} (hk : k ≤ 8) :
    (b &&& BitVec.ofNat 8 (2 ^ k - 1)).toNat = b.toNat % 2 ^ k := by
  have hMask : 2 ^ k - 1 < 2 ^ 8 :=
    (Nat.sub_one_lt (Nat.two_pow_pos k).ne').trans_le (Nat.pow_le_pow_right two_pos hk)
  rw [BitVec.toNat_and, BitVec.toNat_ofNat, Nat.mod_eq_of_lt hMask, Nat.and_two_pow_sub_one_eq_mod]

/-- R63's `|` adds: a byte shifted left by `k` does not overlap a value below `2 ^ k`, and nothing overflows. -/
theorem shiftLeft_or_toNat (b : Byte) {v : CodePoint} {k : Nat} (hk : k ≤ 24) (hv : v.toNat < 2 ^ k) :
    ((b.zeroExtend 32 <<< k) ||| v).toNat = b.toNat * 2 ^ k + v.toNat := by
  have hFits : b.toNat * 2 ^ k < 2 ^ 32 :=
    calc b.toNat * 2 ^ k < 2 ^ 8 * 2 ^ k := Nat.mul_lt_mul_of_pos_right b.isLt (Nat.two_pow_pos k)
      _ = 2 ^ (8 + k) := (Nat.pow_add 2 8 k).symm
      _ ≤ 2 ^ 32 := Nat.pow_le_pow_right two_pos (by omega)
  have hByte : (b.zeroExtend 32).toNat = b.toNat := BitVec.toNat_setWidth_of_le (by omega)
  have hShifted : (b.zeroExtend 32 <<< k).toNat = b.toNat <<< k := by
    rw [BitVec.toNat_shiftLeft, hByte, Nat.shiftLeft_eq, Nat.mod_eq_of_lt hFits]
  rw [BitVec.toNat_or, hShifted, ← Nat.shiftLeft_add_eq_or_of_lt hv, Nat.shiftLeft_eq]

/-- R37: a lead byte that declares `n` bytes keeps its low `7 - n` bits. -/
theorem and_leadMask_toNat (b0 : Byte) {n : Nat} (hLow : 2 ≤ n) (hHigh : n ≤ 4) :
    (b0 &&& leadMask n).toNat = b0.toNat % 2 ^ (7 - n) := by
  interval_cases n
  · exact and_lowMask_toNat b0 (k := 5) (by omega)
  · exact and_lowMask_toNat b0 (k := 4) (by omega)
  · exact and_lowMask_toNat b0 (k := 3) (by omega)

@[simp] theorem assembleConts_nil : assembleConts [] = 0 := rfl

/-- R63 in base 64: the first continuation byte is the most significant digit, above a rest that fills its digits. -/
theorem assembleConts_cons_toNat_of_lt (c : Byte) {cs : List Byte} (hLen : cs.length ≤ 4)
    (hRest : (assembleConts cs).toNat < 2 ^ (6 * cs.length)) :
    (assembleConts (c :: cs)).toNat = c.toNat % 64 * 2 ^ (6 * cs.length) + (assembleConts cs).toNat := by
  have hPayload : (c &&& 0x3F).toNat = c.toNat % 64 := and_lowMask_toNat c (k := 6) (by omega)
  rw [assembleConts, shiftLeft_or_toNat _ (by omega) hRest, hPayload]

/-- R63: each continuation byte has six bits, so the continuation part stays below the lead's field. -/
theorem assembleConts_toNat_lt {conts : List Byte} (h : conts.length ≤ 5) :
    (assembleConts conts).toNat < 2 ^ (6 * conts.length) := by
  induction conts with
  | nil => decide
  | cons c cs ih =>
    have hLen : cs.length ≤ 4 := Nat.le_of_succ_le_succ h
    have hRest := ih (by omega)
    have hDigit : c.toNat % 64 * 2 ^ (6 * cs.length) ≤ 63 * 2 ^ (6 * cs.length) :=
      Nat.mul_le_mul_right _ (by omega)
    rw [assembleConts_cons_toNat_of_lt c hLen hRest, List.length_cons, Nat.mul_succ, Nat.pow_add]
    omega

/-- R63 in base 64, for as many continuation bytes as a code point's word holds. -/
theorem assembleConts_cons_toNat (c : Byte) {cs : List Byte} (hLen : cs.length ≤ 4) :
    (assembleConts (c :: cs)).toNat = c.toNat % 64 * 2 ^ (6 * cs.length) + (assembleConts cs).toNat :=
  assembleConts_cons_toNat_of_lt c hLen (assembleConts_toNat_lt (by omega))

/-- R63: the lead's payload stands above the continuation part. -/
theorem assembleSeq_toNat (b0 : Byte) {conts : List Byte} (hLow : 1 ≤ conts.length) (hHigh : conts.length ≤ 3) :
    (assembleSeq b0 conts).toNat =
      b0.toNat % 2 ^ (6 - conts.length) * 2 ^ (6 * conts.length) + (assembleConts conts).toNat := by
  have hLead : (b0 &&& leadMask (conts.length + 1)).toNat = b0.toNat % 2 ^ (6 - conts.length) := by
    rw [and_leadMask_toNat b0 (by omega) (by omega), Nat.add_sub_add_right 6 1]
  rw [assembleSeq, shiftLeft_or_toNat _ (by omega) (assembleConts_toNat_lt (by omega)), hLead]

/-- R65: the shift-and-or value of two bytes. -/
theorem assembleSeq_two_toNat (b0 b1 : Byte) :
    (assembleSeq b0 [b1]).toNat = b0.toNat % 32 * 64 + b1.toNat % 64 := by
  simp [assembleSeq_toNat, assembleConts_cons_toNat]

/-- R66: the shift-and-or value of three bytes. -/
theorem assembleSeq_three_toNat (b0 b1 b2 : Byte) :
    (assembleSeq b0 [b1, b2]).toNat = b0.toNat % 16 * 4096 + b1.toNat % 64 * 64 + b2.toNat % 64 := by
  simp [assembleSeq_toNat, assembleConts_cons_toNat, Nat.add_assoc]

/-- R67: the shift-and-or value of four bytes. -/
theorem assembleSeq_four_toNat (b0 b1 b2 b3 : Byte) :
    (assembleSeq b0 [b1, b2, b3]).toNat =
      b0.toNat % 8 * 262144 + b1.toNat % 64 * 4096 + b2.toNat % 64 * 64 + b3.toNat % 64 := by
  simp [assembleSeq_toNat, assembleConts_cons_toNat, Nat.add_assoc]

/-- R65: shift-and-or is the concatenation of the payload fields, since both have one positional value. -/
theorem assembleSeq_two (b0 b1 : Byte) : assembleSeq b0 [b1] = assemble2 (b0.extractLsb' 0 5) b1 := by
  apply BitVec.eq_of_toNat_eq
  rw [assembleSeq_two_toNat, assemble2_toNat, value2, BitVec.extractLsb'_toNat, Nat.shiftRight_zero]

/-- R66: shift-and-or is the concatenation of the payload fields, since both have one positional value. -/
theorem assembleSeq_three (b0 b1 b2 : Byte) :
    assembleSeq b0 [b1, b2] = assemble3 (b0.extractLsb' 0 4) b1 b2 := by
  apply BitVec.eq_of_toNat_eq
  rw [assembleSeq_three_toNat, assemble3_toNat, value3, BitVec.extractLsb'_toNat, Nat.shiftRight_zero]

/-- R67: shift-and-or is the concatenation of the payload fields, since both have one positional value. -/
theorem assembleSeq_four (b0 b1 b2 b3 : Byte) :
    assembleSeq b0 [b1, b2, b3] = assemble4 (b0.extractLsb' 0 3) b1 b2 b3 := by
  apply BitVec.eq_of_toNat_eq
  rw [assembleSeq_four_toNat, assemble4_toNat, value4, BitVec.extractLsb'_toNat, Nat.shiftRight_zero]

/-- Settles O16: for each length, the concatenation and the range both follow from the positional value of
shift-and-or. -/
theorem assembledValueIsPositional : Obligations.AssembledValueIsPositional := by
  intro b0 b1 b2 b3
  have hTwo := assembleSeq_two_toNat b0 b1
  have hThree := assembleSeq_three_toNat b0 b1 b2
  have hFour := assembleSeq_four_toNat b0 b1 b2 b3
  exact ⟨⟨assembleSeq_two b0 b1, hTwo, by omega⟩, ⟨assembleSeq_three b0 b1 b2, hThree, by omega⟩,
    ⟨assembleSeq_four b0 b1 b2 b3, hFour, by omega⟩⟩

end Sys2Proof.Machine
end

section
/-! ### The causes of `EmptyInput` and `InvalidLeadByte` (spec/60_exceptions.md R75, R76) -/

namespace Sys2Proof

/-- The two BADLEAD classes, whose lead byte has none of the four patterns (R51, R52). -/
def Instr.IsBadlead (i : Instr) : Prop :=
  ∃ len u, (∃ p, i = .badleadCont len p u) ∨ ∃ p, i = .badleadHigh len p u

end Sys2Proof

namespace Sys2Proof.Machine

/-! ### Which class raises which code -/

@[simp] theorem err_ok (cp : CodePoint) (n : OutLen) : (DecodeResult.ok cp n).err = 0 := rfl

@[simp] theorem err_raise (e : ErrorKind) : (DecodeResult.raise e).err = errCode e := rfl

/-- A result that the evaluation reaches only past its first two checks (R45): neither `EmptyInput` nor
`InvalidLeadByte`. -/
def DecodeResult.PastLead (d : DecodeResult) : Prop := d.err ≠ 1 ∧ d.err ≠ 2

@[simp] theorem pastLead_ok (cp : CodePoint) (n : OutLen) : (DecodeResult.ok cp n).PastLead := by
  simp [DecodeResult.PastLead]

@[simp] theorem pastLead_raise_iff (e : ErrorKind) :
    (DecodeResult.raise e).PastLead ↔ e ≠ .emptyInput ∧ e ≠ .invalidLeadByte := by
  cases e <;> simp [DecodeResult.PastLead, errCode]

/-- A check keeps an evaluation past the lead byte where both what it answers and what it lets through are. -/
theorem pastLead_ite_iff (c : Prop) [Decidable c] (d e : DecodeResult) :
    (if c then d else e).PastLead ↔ (c → d.PastLead) ∧ (¬ c → e.PastLead) := by
  split_ifs with h <;> simp [h]

theorem dec1_pastLead (P : Params) (strict : Bool) (len : LenField) (p : BitVec 7) (t : Tail) :
    (dec1 P strict len p t).PastLead := by
  simp only [dec1, pastLead_ite_iff]
  simp

theorem dec2_pastLead (strict : Bool) (len : LenField) (p : BitVec 5) (t : Tail) :
    (dec2 strict len p t).PastLead := by
  simp only [dec2, pastLead_ite_iff]
  simp

theorem dec3_pastLead (P : Params) (strict : Bool) (len : LenField) (p : BitVec 4) (t : Tail) :
    (dec3 P strict len p t).PastLead := by
  simp only [dec3, pastLead_ite_iff]
  simp

theorem dec4_pastLead (P : Params) (strict : Bool) (len : LenField) (p : BitVec 3) (t : Tail) :
    (dec4 P strict len p t).PastLead := by
  simp only [dec4, pastLead_ite_iff]
  simp

/-- R46 to R52: EMPTY alone ends with `EmptyInput`, the two BADLEAD classes alone with `InvalidLeadByte`. -/
theorem err_outcome_iff (P : Params) (strict : Bool) (i : Instr) :
    ((outcome P strict i).err = 1 ↔ ∃ b0 u, i = .empty b0 u) ∧
    ((outcome P strict i).err = 2 ↔ i.IsBadlead) := by
  cases i with
  | empty b0 t => simp [outcome, empty, errCode, Instr.IsBadlead]
  | badleadCont len p t => simp [outcome, badleadCont, errCode, Instr.IsBadlead]
  | badleadHigh len p t => simp [outcome, badleadHigh, errCode, Instr.IsBadlead]
  | dec1 len p t => simpa [outcome, Instr.IsBadlead, DecodeResult.PastLead] using dec1_pastLead P strict len p t
  | dec2 len p t => simpa [outcome, Instr.IsBadlead, DecodeResult.PastLead] using dec2_pastLead strict len p t
  | dec3 len p t => simpa [outcome, Instr.IsBadlead, DecodeResult.PastLead] using dec3_pastLead P strict len p t
  | dec4 len p t => simpa [outcome, Instr.IsBadlead, DecodeResult.PastLead] using dec4_pastLead P strict len p t

/-! ### Which requests have which class -/

/-- R40 on the pins, both ways. -/
theorem exists_decodeReq_request_eq_empty_iff (s : State) :
    (∃ b0 u, decodeReq s.request = .empty b0 u) ↔ s.inLen = 0 := by
  constructor
  · rintro ⟨b0, u, hEmpty⟩
    exact inLen_eq_zero_of_decodeReq_eq_empty hEmpty
  · intro hZero
    exact ⟨_, _, decodeReq_request_of_inLen_eq_zero hZero⟩

/-- R35: the pattern `0xxxxxxx`. -/
theorem and_80_eq_00_iff (c : Byte) : c &&& 0x80 = 0x00 ↔ c.toNat ≤ 0x7F :=
  (and_allOnes_shiftLeft_eq_iff c 0x00 7).trans (by simp; omega)

/-- R35: the pattern `10xxxxxx`. -/
theorem and_C0_eq_80_iff (c : Byte) : c &&& 0xC0 = 0x80 ↔ IsContByte c :=
  beq_iff_eq.symm.trans (isCont_iff c)

/-- R35: the lead bytes of the BADLEAD classes, as ranges; BADLEAD_HIGH takes what the five patterns leave. -/
theorem isBadlead_decodeReq_iff_of_reqLen_ne_zero {r : Req} (hLen : reqLen r ≠ 0) :
    (decodeReq r).IsBadlead ↔ InRange 0x80 0xBF (reqByte 0 r) ∨ InRange 0xF8 0xFF (reqByte 0 r) := by
  simp only [decodeReq, if_neg hLen, and_80_eq_00_iff, and_C0_eq_80_iff, and_E0_eq_C0_iff, and_F0_eq_E0_iff,
    and_F8_eq_F0_iff]
  split_ifs <;> simp [Instr.IsBadlead] <;> omega

/-- R35 and R40: a request is of a BADLEAD class by its length field and its lead byte. -/
theorem isBadlead_decodeReq_iff (r : Req) :
    (decodeReq r).IsBadlead ↔
      reqLen r ≠ 0 ∧ (InRange 0x80 0xBF (reqByte 0 r) ∨ InRange 0xF8 0xFF (reqByte 0 r)) := by
  by_cases hLen : reqLen r = 0
  · simp [decodeReq_of_reqLen_eq_zero hLen, hLen, Instr.IsBadlead]
  · rw [isBadlead_decodeReq_iff_of_reqLen_ne_zero hLen, and_iff_right hLen]

/-! ### What a failure records -/

/-- R15, R16, R18: legal outputs with an error code hold nothing else. -/
theorem outputs_zero_of_outErr_ne_zero {s : State} (hLegal : OutputsLegal s) (hErr : s.outErr ≠ 0) :
    s.outCp = 0 ∧ s.outLen = 0 ∧ s.outOk = false := by
  obtain ⟨hOk, hZeros, -⟩ := hLegal
  obtain ⟨hCp, hLen⟩ := hZeros hErr
  exact ⟨hCp, hLen, Bool.eq_false_iff.mpr fun h => hErr (hOk.mp h)⟩

/-- Settles O22: a step drives the outcome of the class on the pins, the class alone decides between codes 1, 2 and the
others, and the decoder chooses the class by the length field and the range of the lead byte. -/
theorem emptyAndLeadErrorsHaveTheirCauses : Obligations.EmptyAndLeadErrorsHaveTheirCauses := by
  intro s
  obtain ⟨hOne, hTwo⟩ := err_outcome_iff hardware s.cfgStrictTrailing (decodeReq s.request)
  have hBad := isBadlead_decodeReq_iff s.request
  rw [reqLen_request, reqByte_zero_request] at hBad
  have hEmpty := exists_decodeReq_request_eq_empty_iff s
  refine ⟨_, step_eq_drive_outcome s, hOne.trans hEmpty, hTwo.trans hBad, hOne, hTwo, ?_⟩
  intro hErr
  refine outputs_zero_of_outErr_ne_zero (outputsLegal_drive s (outcome_legal _ _ _)) ?_
  rcases hErr with h | h <;> rw [h] <;> decide

end Sys2Proof.Machine
end

section
/-! ### Independence of consecutive DECODEs (spec/70_reset_and_hazards.md R92) -/

namespace Sys2Proof.Machine

/-- R17: driving an outcome leaves the inputs as they are. -/
theorem sameInputs_drive (s : State) (d : DecodeResult) : SameInputs (s.drive d) s := ⟨rfl, rfl, rfl⟩

/-- R31: the snapshot is a function of the inputs. -/
theorem request_eq_of_sameInputs {s s' : State} (h : SameInputs s s') : s.request = s'.request := by
  obtain ⟨hByte, hLen, -⟩ := h
  simp only [State.request, State.tail, hByte, hLen]

/-- R21: a state is its inputs and its four outputs, so driving one outcome over the same inputs gives one state. -/
theorem drive_eq_of_sameInputs {s s' : State} (h : SameInputs s s') (d : DecodeResult) : s.drive d = s'.drive d := by
  obtain ⟨hByte, hLen, hMode⟩ := h
  simp only [State.drive, hByte, hLen, hMode]

/-- R92: a step reads the inputs only and overwrites every output an earlier DECODE left. -/
theorem step_eq_of_sameInputs {s s' : State} (h : SameInputs s s') : step s = step s' := by
  have hRequest := request_eq_of_sameInputs h
  have hDrive := drive_eq_of_sameInputs h
  obtain ⟨-, -, hMode⟩ := h
  rw [step_eq_drive_outcome, step_eq_drive_outcome, hRequest, hMode, hDrive]

/-- Settles O32: a step is a function of the inputs, and the state it leaves has the inputs of the state it started in. -/
theorem repeatedRequestSameOutcome : Obligations.RepeatedRequestSameOutcome := by
  intro s s' hSame
  have hStep := step_eq_drive_outcome s
  exact ⟨_, hStep, (step_eq_of_sameInputs hSame).symm.trans hStep,
    (step_eq_of_sameInputs (sameInputs_drive s _)).trans hStep⟩

end Sys2Proof.Machine
end

section
/-! ### The class of a request by the range of its lead byte (spec/30_encoding.md R34, R35) -/

namespace Sys2Proof

/-! ### Splitting a lead byte into its pattern and its payload -/

/-- The payload is what a byte exceeds the start of its range by, where that start is a multiple of `2 ^ k`. -/
theorem extractLsb'_zero_eq_ofNat_sub {b : Byte} {k m : Nat} (hStart : m % 2 ^ k = 0) (h : m ≤ b.toNat) :
    b.extractLsb' 0 k = BitVec.ofNat k (b.toNat - m) := by
  apply BitVec.eq_of_toNat_eq
  rw [BitVec.extractLsb'_toNat, Nat.shiftRight_zero, BitVec.toNat_ofNat]
  obtain ⟨c, rfl⟩ := Nat.dvd_of_mod_eq_zero hStart
  exact (Nat.sub_mul_mod h).symm

/-- The payload of a byte that stands `p` above the start of its range is `p`. -/
theorem extractLsb'_zero_eq_of_toNat_eq {b : Byte} {k m : Nat} {p : BitVec k} (hStart : m % 2 ^ k = 0)
    (h : b.toNat = m + p.toNat) : b.extractLsb' 0 k = p := by
  rw [extractLsb'_zero_eq_ofNat_sub hStart (h ▸ Nat.le_add_right m _), h, Nat.add_sub_cancel_left, BitVec.ofNat_toNat,
    BitVec.setWidth_eq]

/-! ### The lead byte of a class as a number (R34, R35) -/

section
variable (len : LenField) (t : Tail)

theorem leadByte_dec1_toNat (p : BitVec 7) : (Instr.dec1 len p t).leadByte.toNat = 0x00 + p.toNat :=
  toNat_append_eq 0b0#1 p

theorem leadByte_badleadCont_toNat (p : BitVec 6) : (Instr.badleadCont len p t).leadByte.toNat = 0x80 + p.toNat :=
  toNat_append_eq 0b10#2 p

theorem leadByte_dec2_toNat (p : BitVec 5) : (Instr.dec2 len p t).leadByte.toNat = 0xC0 + p.toNat :=
  toNat_append_eq 0b110#3 p

theorem leadByte_dec3_toNat (p : BitVec 4) : (Instr.dec3 len p t).leadByte.toNat = 0xE0 + p.toNat :=
  toNat_append_eq 0b1110#4 p

theorem leadByte_dec4_toNat (p : BitVec 3) : (Instr.dec4 len p t).leadByte.toNat = 0xF0 + p.toNat :=
  toNat_append_eq 0b11110#5 p

theorem leadByte_badleadHigh_toNat (p : BitVec 3) : (Instr.badleadHigh len p t).leadByte.toNat = 0xF8 + p.toNat :=
  toNat_append_eq 0b11111#5 p

end

end Sys2Proof

namespace Sys2Proof.Machine

/-! ### The class by the range of the lead byte -/

/-- R35: the decoder's mask tests, in their order, as ranges. -/
theorem decodeReq_eq_ranges {r : Req} (hLen : reqLen r ≠ 0) :
    decodeReq r =
      if (reqByte 0 r).toNat ≤ 0x7F then .dec1 (reqLen r) ((reqByte 0 r).extractLsb' 0 7) (reqTail r)
      else if IsContByte (reqByte 0 r) then .badleadCont (reqLen r) ((reqByte 0 r).extractLsb' 0 6) (reqTail r)
      else if InRange 0xC0 0xDF (reqByte 0 r) then .dec2 (reqLen r) ((reqByte 0 r).extractLsb' 0 5) (reqTail r)
      else if InRange 0xE0 0xEF (reqByte 0 r) then .dec3 (reqLen r) ((reqByte 0 r).extractLsb' 0 4) (reqTail r)
      else if InRange 0xF0 0xF7 (reqByte 0 r) then .dec4 (reqLen r) ((reqByte 0 r).extractLsb' 0 3) (reqTail r)
      else .badleadHigh (reqLen r) ((reqByte 0 r).extractLsb' 0 3) (reqTail r) := by
  simp only [decodeReq, if_neg hLen, and_80_eq_00_iff, and_C0_eq_80_iff, and_E0_eq_C0_iff, and_F0_eq_E0_iff,
    and_F8_eq_F0_iff]

section
variable {r : Req} (hLen : reqLen r ≠ 0)
include hLen

theorem decodeReq_eq_dec1 (h : (reqByte 0 r).toNat ≤ 0x7F) :
    decodeReq r = .dec1 (reqLen r) ((reqByte 0 r).extractLsb' 0 7) (reqTail r) := by
  rw [decodeReq_eq_ranges hLen, if_pos h]

theorem decodeReq_eq_badleadCont (h : IsContByte (reqByte 0 r)) :
    decodeReq r = .badleadCont (reqLen r) ((reqByte 0 r).extractLsb' 0 6) (reqTail r) := by
  rw [decodeReq_eq_ranges hLen, if_neg (by omega), if_pos h]

theorem decodeReq_eq_dec2 (h : InRange 0xC0 0xDF (reqByte 0 r)) :
    decodeReq r = .dec2 (reqLen r) ((reqByte 0 r).extractLsb' 0 5) (reqTail r) := by
  rw [decodeReq_eq_ranges hLen, if_neg (by omega), if_neg (by omega), if_pos h]

theorem decodeReq_eq_dec3 (h : InRange 0xE0 0xEF (reqByte 0 r)) :
    decodeReq r = .dec3 (reqLen r) ((reqByte 0 r).extractLsb' 0 4) (reqTail r) := by
  rw [decodeReq_eq_ranges hLen, if_neg (by omega), if_neg (by omega), if_neg (by omega), if_pos h]

theorem decodeReq_eq_dec4 (h : InRange 0xF0 0xF7 (reqByte 0 r)) :
    decodeReq r = .dec4 (reqLen r) ((reqByte 0 r).extractLsb' 0 3) (reqTail r) := by
  rw [decodeReq_eq_ranges hLen, if_neg (by omega), if_neg (by omega), if_neg (by omega), if_neg (by omega), if_pos h]

theorem decodeReq_eq_badleadHigh (h : 0xF8 ≤ (reqByte 0 r).toNat) :
    decodeReq r = .badleadHigh (reqLen r) ((reqByte 0 r).extractLsb' 0 3) (reqTail r) := by
  rw [decodeReq_eq_ranges hLen, if_neg (by omega), if_neg (by omega), if_neg (by omega), if_neg (by omega),
    if_neg (by omega)]

end

/-- Settles O5: the decoder selects the class by the range, and the payload it cuts out is the distance from the range's
start. -/
theorem classFollowsLeadByteRange : Obligations.ClassFollowsLeadByteRange := by
  intro r
  refine ⟨decodeReq_of_reqLen_eq_zero, fun hLen hHigh => ?_, fun hLen hLow hHigh => ?_, fun hLen hLow hHigh => ?_,
    fun hLen hLow hHigh => ?_, fun hLen hLow hHigh => ?_, fun hLen hLow => ?_⟩
  · rw [decodeReq_eq_dec1 hLen hHigh, extractLsb'_zero_eq_ofNat_sub rfl (Nat.zero_le _), Nat.sub_zero]
  · rw [decodeReq_eq_badleadCont hLen ⟨hLow, hHigh⟩, extractLsb'_zero_eq_ofNat_sub rfl hLow]
  · rw [decodeReq_eq_dec2 hLen ⟨hLow, hHigh⟩, extractLsb'_zero_eq_ofNat_sub rfl hLow]
  · rw [decodeReq_eq_dec3 hLen ⟨hLow, hHigh⟩, extractLsb'_zero_eq_ofNat_sub rfl hLow]
  · rw [decodeReq_eq_dec4 hLen ⟨hLow, hHigh⟩, extractLsb'_zero_eq_ofNat_sub rfl hLow]
  · rw [decodeReq_eq_badleadHigh hLen hLow, extractLsb'_zero_eq_ofNat_sub rfl hLow]

end Sys2Proof.Machine
end

section
/-! ### Requests and instructions are the same thing (spec/30_encoding.md R32, R41) -/

namespace Sys2Proof.Machine

@[simp] theorem reqLen_encode (i : Instr) : reqLen (encode i) = i.lenField := reqLen_packRequest _ _ _

@[simp] theorem reqByte_zero_encode (i : Instr) : reqByte 0 (encode i) = i.leadByte :=
  reqByte_zero_packRequest _ _ _

@[simp] theorem reqTail_encode (i : Instr) : reqTail (encode i) = i.tail := reqTail_packRequest _ _ _

/-- R40: the word of a well-formed lead-byte class has a nonzero length field. -/
theorem reqLen_encode_ne_zero {i : Instr} (h : (i.lenField != 0) = true) : reqLen (encode i) ≠ 0 := by
  simpa using h

/-- Settles O2: the word of an instruction carries its operands in its fields, and its lead byte is in the range by
which the decoder selects its class. -/
theorem decodeEncodeRoundTrip : Obligations.DecodeEncodeRoundTrip := by
  intro i hWf
  cases i with
  | empty b0 t => simpa [Instr.leadByte, Instr.tail] using decodeReq_of_reqLen_eq_zero (reqLen_encode (.empty b0 t))
  | dec1 len p t =>
    have hLead := leadByte_dec1_toNat len t p
    rw [decodeReq_eq_dec1 (reqLen_encode_ne_zero (i := .dec1 len p t) hWf) (by rw [reqByte_zero_encode]; omega),
      reqByte_zero_encode, extractLsb'_zero_eq_of_toNat_eq rfl hLead, reqLen_encode, reqTail_encode]
    rfl
  | badleadCont len p t =>
    have hLead := leadByte_badleadCont_toNat len t p
    rw [decodeReq_eq_badleadCont (reqLen_encode_ne_zero (i := .badleadCont len p t) hWf)
        (by rw [reqByte_zero_encode]; omega),
      reqByte_zero_encode, extractLsb'_zero_eq_of_toNat_eq rfl hLead, reqLen_encode, reqTail_encode]
    rfl
  | dec2 len p t =>
    have hLead := leadByte_dec2_toNat len t p
    rw [decodeReq_eq_dec2 (reqLen_encode_ne_zero (i := .dec2 len p t) hWf) (by rw [reqByte_zero_encode]; omega),
      reqByte_zero_encode, extractLsb'_zero_eq_of_toNat_eq rfl hLead, reqLen_encode, reqTail_encode]
    rfl
  | dec3 len p t =>
    have hLead := leadByte_dec3_toNat len t p
    rw [decodeReq_eq_dec3 (reqLen_encode_ne_zero (i := .dec3 len p t) hWf) (by rw [reqByte_zero_encode]; omega),
      reqByte_zero_encode, extractLsb'_zero_eq_of_toNat_eq rfl hLead, reqLen_encode, reqTail_encode]
    rfl
  | dec4 len p t =>
    have hLead := leadByte_dec4_toNat len t p
    rw [decodeReq_eq_dec4 (reqLen_encode_ne_zero (i := .dec4 len p t) hWf) (by rw [reqByte_zero_encode]; omega),
      reqByte_zero_encode, extractLsb'_zero_eq_of_toNat_eq rfl hLead, reqLen_encode, reqTail_encode]
    rfl
  | badleadHigh len p t =>
    have hLead := leadByte_badleadHigh_toNat len t p
    rw [decodeReq_eq_badleadHigh (reqLen_encode_ne_zero (i := .badleadHigh len p t) hWf)
        (by rw [reqByte_zero_encode]; omega),
      reqByte_zero_encode, extractLsb'_zero_eq_of_toNat_eq rfl hLead, reqLen_encode, reqTail_encode]
    rfl

@[simp] theorem tail_decodeReq (r : Req) : (decodeReq r).tail = reqTail r := by
  by_cases hLen : reqLen r = 0
  · rw [decodeReq_of_reqLen_eq_zero hLen]
    rfl
  · rw [decodeReq_eq_ranges hLen]
    split_ifs <;> rfl

/-- R34, R35: the decoder loses no bit of the lead byte: the pattern stands in the class, the rest in the payload. -/
@[simp] theorem leadByte_decodeReq (r : Req) : (decodeReq r).leadByte = reqByte 0 r := by
  by_cases hLen : reqLen r = 0
  · rw [decodeReq_of_reqLen_eq_zero hLen]
    rfl
  · have hPayload : ∀ k, ((reqByte 0 r).extractLsb' 0 k).toNat = (reqByte 0 r).toNat % 2 ^ k := by
      simp [BitVec.extractLsb'_toNat]
    apply BitVec.eq_of_toNat_eq
    rw [decodeReq_eq_ranges hLen]
    split_ifs <;>
      simp only [leadByte_dec1_toNat, leadByte_badleadCont_toNat, leadByte_dec2_toNat, leadByte_dec3_toNat,
        leadByte_dec4_toNat, leadByte_badleadHigh_toNat, hPayload] <;> omega

/-- R40: the decoder answers a lead-byte class only where the length field is not 0. -/
theorem wellFormed_decodeReq (r : Req) : (decodeReq r).wellFormed = true := by
  by_cases hLen : reqLen r = 0
  · rw [decodeReq_of_reqLen_eq_zero hLen]
    rfl
  · rw [decodeReq_eq_ranges hLen]
    split_ifs <;> simpa [Instr.wellFormed] using hLen

@[simp] theorem encode_decodeReq (r : Req) : encode (decodeReq r) = r := by
  rw [encode, lenField_decodeReq, leadByte_decodeReq, tail_decodeReq, packRequest_of_fields]

/-- Settles O3: the decoder keeps every field of the request, and a request is its fields. -/
theorem everyRequestIsOneInstruction : Obligations.EveryRequestIsOneInstruction :=
  fun r => ⟨wellFormed_decodeReq r, encode_decodeReq r⟩

/-- Settles O1: each of the seven words is read by evaluating the decoder. -/
theorem specWordsDecode : Obligations.SpecWordsDecode := by
  unfold Obligations.SpecWordsDecode
  decide

/-- Settles O4: the decoder of numbers compares with 2^43 before it looks for a class. -/
theorem onlyWiderNumbersAreRejected : Obligations.OnlyWiderNumbersAreRejected := by
  intro w
  by_cases hFits : w < 2 ^ 43
  · have hOk : decodeWord w = .ok (decodeReq (BitVec.ofNat 43 w)) := if_pos hFits
    exact ⟨iff_of_false (by simp [hOk]) (by omega), fun _ => hOk⟩
  · have hError : decodeWord w = .error .widerThanRequest := if_neg hFits
    exact ⟨iff_of_true hError (by omega), fun h => absurd h hFits⟩

end Sys2Proof.Machine
end

section
/-! ### Presenting a request (spec/70_reset_and_hazards.md R90, R94; logs 9 to 11) -/

namespace Sys2Proof.Machine

@[simp] theorem presentRequest_request (s : State) (r : Req) : (s.presentRequest r).request = r :=
  packRequest_of_fields r

/-- Settles O6: a step decodes the word on the pins, and decoding undoes encoding. -/
theorem stepRunsThePresentedInstruction : Obligations.StepRunsThePresentedInstruction := by
  refine ⟨fun i s hWf hPins => ?_, fun r s => presentRequest_request s r⟩
  rw [step, hPins, decodeEncodeRoundTrip i hWf]

theorem decodeWord_toNat (r : Req) : decodeWord r.toNat = .ok (decodeReq r) := by
  obtain ⟨-, hOk⟩ := onlyWiderNumbersAreRejected r.toNat
  rw [hOk r.isLt, BitVec.ofNat_toNat, BitVec.setWidth_eq]

/-- The instruction of a table word is the instruction of the request that the word stands for (log 10). -/
theorem decodeTableWord_eq_some_iff {nbits w : Nat} {i : Instr} :
    decodeTableWord nbits w = some i ↔ ∃ r, tableRequest nbits w = some r ∧ decodeReq r = i := by
  simp [decodeTableWord, Option.bind_eq_some_iff, decodeWord_toNat, Except.toOption]

/-- Settles O7: `withFetchWord` presents the request that the table word stands for, and presenting drives inputs
only. -/
theorem stepRunsTheTableWord : Obligations.StepRunsTheTableWord := by
  intro s nbits w i hDecode
  obtain ⟨r, hRequest, rfl⟩ := decodeTableWord_eq_some_iff.mp hDecode
  have hPresent : s.withFetchWord nbits w = s.presentRequest r := by
    rw [State.withFetchWord, State.presentTableWord, hRequest]
  rw [hPresent, step, presentRequest_request]
  exact ⟨rfl, ⟨rfl, rfl, rfl, rfl⟩, rfl⟩

end Sys2Proof.Machine
end

section
/-! ### What every class and every step does (spec/10_state.md R17, spec/40_decoder.md R53) -/

namespace Sys2Proof.Machine

/-- Settles O20: all that an instruction or a step does is to drive an outcome. -/
theorem inputsAreNeverDriven : Obligations.InputsAreNeverDriven :=
  ⟨fun i s => ⟨_, exec_eq_drive_outcome i s, rfl, rfl, rfl⟩, fun s => ⟨_, step_eq_drive_outcome s, rfl, rfl, rfl⟩⟩

theorem run_succ_of_step_eq_next {s t : State} (h : step s = .next t) (k : Nat) :
    core.run (k + 1) s = core.run k t := by
  have hCore : core.step s = .next t := h
  simp only [Host.Core.run, hCore]

/-- Settles O19: an instruction drives an outcome in every state, so by induction any number of steps completes. -/
theorem everyDecodeCompletes : Obligations.EveryDecodeCompletes := by
  refine ⟨fun i s => ⟨_, exec_eq_drive_outcome i s⟩, fun k => ?_⟩
  induction k with
  | zero => exact fun s => ⟨s, rfl⟩
  | succ k ih =>
    intro s
    rw [run_succ_of_step_eq_next (step_eq_drive_outcome s)]
    exact ih _

/-- Settles O33: a step reads the inputs only, and a request presented at reset or in a state of the same mode gives the
same inputs. -/
theorem firstDecodeAfterResetIsLikeEveryOther : Obligations.FirstDecodeAfterResetIsLikeEveryOther := by
  refine ⟨rfl, fun s r hMode => ?_⟩
  have hSame : SameInputs (State.reset.presentRequest r) (s.presentRequest r) := ⟨rfl, rfl, hMode.symm⟩
  exact ⟨_, step_eq_drive_outcome _, (step_eq_of_sameInputs hSame).symm.trans (step_eq_drive_outcome _)⟩

end Sys2Proof.Machine
end

section
/-! ### The classes that succeed, in ranges (spec/40_decoder.md R47 to R50) -/

namespace Sys2Proof.Machine

/-- R48 in ranges. -/
theorem dec2_eq (s : State) (len : LenField) (p : BitVec 5) (t : Tail) :
    dec2 s.cfgStrictTrailing len p t =
      if len.toNat < 2 then .raise .invalidLength
      else if ¬ IsContByte t.b1 then .raise .invalidContinuationByte
      else if value2 p t.b1 < 0x80 then .raise .overlong
      else if Stray s len 2 t.b2 then .raise .invalidLength
      else .ok (assemble2 p t.b1) 2 := by
  simp only [dec2, lengthCheck_eq_decide, contCheck, List.all_cons, List.all_nil, isCont_eq_decide,
    overlong_two_eq_decide, trailCheck_eq_decide, assemble2_toNat, Bool.and_true, Bool.not_eq_true',
    decide_eq_true_eq, decide_eq_false_iff_not, Nat.not_le]

/-- R49 in ranges. -/
theorem dec3_eq (s : State) (len : LenField) (p : BitVec 4) (t : Tail) :
    dec3 hardware s.cfgStrictTrailing len p t =
      if len.toNat < 3 then .raise .invalidLength
      else if ¬ (IsContByte t.b1 ∧ IsContByte t.b2) then .raise .invalidContinuationByte
      else if p.toNat = 0 ∧ t.b1.toNat < 0xA0 then .raise .overlong
      else if Stray s len 3 t.b3 then .raise .invalidLength
      else if IsSurrogateValue (value3 p t.b1 t.b2) then .raise .surrogateHalf
      else .ok (assemble3 p t.b1 t.b2) 3 := by
  simp only [dec3, lengthCheck_eq_decide, contCheck, List.all_cons, List.all_nil, isCont_eq_decide,
    overlong_three_eq_decide, trailCheck_eq_decide, surrogate_eq_decide, assemble3_toNat, hardware, Bool.and_true,
    Bool.true_and, Bool.not_true, Bool.false_and, Bool.not_eq_true', decide_eq_true_eq, decide_eq_false_iff_not,
    Nat.not_le, ← Bool.decide_and, Bool.false_eq_true, if_false]

/-- R74: a four-byte value that is not overlong is at least 0x10000. -/
theorem value4_ge_of_not_overlong {p : BitVec 3} {b1 : Byte} (b2 b3 : Byte) (hCont : IsContByte b1)
    (h : ¬ (p.toNat = 0 ∧ b1.toNat < 0x90)) : 0x10000 ≤ value4 p b1 b2 b3 := by
  unfold value4
  omega

/-- R50 in ranges. -/
theorem dec4_eq_checks (s : State) (len : LenField) (p : BitVec 3) (t : Tail) :
    dec4 hardware s.cfgStrictTrailing len p t =
      if len.toNat < 4 then .raise .invalidLength
      else if ¬ (IsContByte t.b1 ∧ IsContByte t.b2 ∧ IsContByte t.b3) then .raise .invalidContinuationByte
      else if p.toNat = 0 ∧ t.b1.toNat < 0x90 then .raise .overlong
      else if Stray s len 4 t.b4 then .raise .invalidLength
      else if IsSurrogateValue (value4 p t.b1 t.b2 t.b3) then .raise .surrogateHalf
      else if 0x10FFFF < value4 p t.b1 t.b2 t.b3 then .raise .tooLarge
      else .ok (assemble4 p t.b1 t.b2 t.b3) 4 := by
  simp only [dec4, lengthCheck_eq_decide, contCheck, List.all_cons, List.all_nil, isCont_eq_decide,
    overlong_four_eq_decide, trailCheck_eq_decide, surrogate_eq_decide, tooLarge_eq_decide, assemble4_toNat, hardware,
    Bool.and_true, Bool.true_and, Bool.not_true, Bool.false_and, Bool.not_eq_true', decide_eq_true_eq,
    decide_eq_false_iff_not, Nat.not_le, ← Bool.decide_and, Bool.false_eq_true, if_false]

/-- R50: the surrogate check never fires, since a value that is not overlong is above the surrogates (R74). -/
theorem dec4_eq (s : State) (len : LenField) (p : BitVec 3) (t : Tail) :
    dec4 hardware s.cfgStrictTrailing len p t =
      if len.toNat < 4 then .raise .invalidLength
      else if ¬ (IsContByte t.b1 ∧ IsContByte t.b2 ∧ IsContByte t.b3) then .raise .invalidContinuationByte
      else if p.toNat = 0 ∧ t.b1.toNat < 0x90 then .raise .overlong
      else if Stray s len 4 t.b4 then .raise .invalidLength
      else if 0x10FFFF < value4 p t.b1 t.b2 t.b3 then .raise .tooLarge
      else .ok (assemble4 p t.b1 t.b2 t.b3) 4 := by
  rw [dec4_eq_checks]
  refine ite_congr rfl (fun _ => rfl) fun _ => ite_congr rfl (fun _ => rfl) fun hConts =>
    ite_congr rfl (fun _ => rfl) fun hOverlong => ite_congr rfl (fun _ => rfl) fun _ => if_neg ?_
  have hMin := value4_ge_of_not_overlong t.b2 t.b3 (not_not.mp hConts).1 hOverlong
  omega

/-- R64: a one-byte value is the byte. -/
theorem assemble1_toNat (b0 : Byte) : (assemble1 b0).toNat = b0.toNat := BitVec.toNat_setWidth_of_le (by omega)

/-- Settles O9: on this hardware the outcome of DEC1 makes no check, and the value is the payload (R47). -/
theorem dec1ReturnsTheLeadByte : Obligations.Dec1ReturnsTheLeadByte := by
  intro len p t s
  have hValue : (assemble1 (0b0#1 ++ p)).toNat = 0x00 + p.toNat :=
    (assemble1_toNat _).trans (leadByte_dec1_toNat len t p)
  have hOutcome : outcome hardware s.cfgStrictTrailing (.dec1 len p t) = .ok (assemble1 (0b0#1 ++ p)) 1 := rfl
  rw [exec_eq_drive_outcome, hOutcome, drive_ok, hValue, Nat.zero_add]
  rfl

/-- Settles O12: DEC2 drives the result of its checks. -/
theorem dec2Outcome : Obligations.Dec2Outcome := by
  intro len p t s
  rw [exec_eq_drive_outcome, outcome, dec2_eq]
  simp only [apply_ite s.drive, drive_raise, errCode, drive_ok, assemble2_toNat]
  rfl

/-- Settles O13: DEC3 drives the result of its checks. -/
theorem dec3Outcome : Obligations.Dec3Outcome := by
  intro len p t s
  rw [exec_eq_drive_outcome, outcome, dec3_eq]
  simp only [apply_ite s.drive, drive_raise, errCode, drive_ok, assemble3_toNat]
  rfl

/-- Settles O14: DEC4 drives the result of its checks. -/
theorem dec4Outcome : Obligations.Dec4Outcome := by
  intro len p t s
  rw [exec_eq_drive_outcome, outcome, dec4_eq]
  simp only [apply_ite s.drive, drive_raise, errCode, drive_ok, assemble4_toNat]
  rfl

end Sys2Proof.Machine
end

section
/-! ### The value checks (spec/42_codepoint_assembler.md R68 to R74) -/

namespace Sys2Proof.Machine

/-- Settles O17: two-byte values are compared as they are; for three and four bytes the value is below the minimum
exactly when the payload is 0 and the second byte leaves the next digit too small. -/
theorem overlongMeansBelowTheMinimum : Obligations.OverlongMeansBelowTheMinimum := by
  refine ⟨fun p b1 h1 => ?_, fun p b1 b2 h1 h2 => ?_, fun p b1 b2 b3 h1 h2 h3 => ?_⟩
  · rw [overlong_two_eq_decide, assemble2_toNat, decide_eq_true_eq]
  · rw [overlong_three_eq_decide, decide_eq_true_eq, value3]
    omega
  · rw [overlong_four_eq_decide, decide_eq_true_eq, value4]
    omega

/-- Settles O18: every check is a comparison of the positional value. -/
theorem valueChecksExcludeEachOther : Obligations.ValueChecksExcludeEachOther := by
  refine ⟨fun cp => ?_, fun b0 h0 => ?_, fun p b1 => ?_, fun p b1 b2 h1 h2 => ?_, fun p b1 b2 b3 h1 h2 h3 => ?_⟩
  · simp only [surrogate_eq_decide, tooLarge_eq_decide, decide_eq_true_eq]
    omega
  · simp only [surrogate_eq_decide, tooLarge_eq_decide, decide_eq_false_iff_not, assemble1_toNat]
    omega
  · simp only [surrogate_eq_decide, tooLarge_eq_decide, decide_eq_false_iff_not, assemble2_toNat, value2]
    omega
  · simp only [surrogate_eq_decide, tooLarge_eq_decide, overlong_three_eq_decide, decide_eq_true_eq,
      decide_eq_false_iff_not, assemble3_toNat, value3]
    omega
  · simp only [surrogate_eq_decide, tooLarge_eq_decide, overlong_four_eq_decide, decide_eq_true_eq,
      decide_eq_false_iff_not, assemble4_toNat, value4, ← BitVec.toNat_inj, BitVec.ofNat_eq_ofNat,
      BitVec.toNat_ofNat]
    omega

end Sys2Proof.Machine
end

section
/-! ### One DECODE on the window, in ranges (spec/40_decoder.md R45) -/

namespace Sys2Proof.Machine

/-! ### The lanes of a sequence -/

theorem inByte_toList (s : State) :
    s.inByte.toList = [s.inByte[0], s.inByte[1], s.inByte[2], s.inByte[3], s.inByte[4]] := by
  apply List.ext_getElem
  · simp
  · intro i hi _
    have : i < 5 := by simpa using hi
    interval_cases i <;> simp

/-- The lanes that a sequence of `n` bytes takes after the lead byte (R59). -/
def State.conts (s : State) (n : Nat) : List Byte := s.inByte.toList.tail.take (n - 1)

theorem conts_two (s : State) : s.conts 2 = [s.inByte[1]] := by simp [State.conts, inByte_toList]

theorem conts_three (s : State) : s.conts 3 = [s.inByte[1], s.inByte[2]] := by simp [State.conts, inByte_toList]

theorem conts_four (s : State) : s.conts 4 = [s.inByte[1], s.inByte[2], s.inByte[3]] := by
  simp [State.conts, inByte_toList]

/-- All lanes after the lead byte of a sequence of `n` bytes hold continuation bytes (R59). -/
abbrev ContsRight (s : State) (n : Nat) : Prop :=
  ∀ (k : Nat) (_ : k < 5), 1 ≤ k → k < n → IsContByte s.inByte[k]

theorem contsRight_two_iff (s : State) : ContsRight s 2 ↔ IsContByte s.inByte[1] := by
  refine ⟨fun h => h 1 (by omega) le_rfl (by omega), fun h k _ hLow hHigh => ?_⟩
  interval_cases k
  exact h

theorem contsRight_three_iff (s : State) : ContsRight s 3 ↔ IsContByte s.inByte[1] ∧ IsContByte s.inByte[2] := by
  refine ⟨fun h => ⟨h 1 (by omega) le_rfl (by omega), h 2 (by omega) (by omega) (by omega)⟩, ?_⟩
  rintro ⟨h1, h2⟩ k - hLow hHigh
  interval_cases k
  · exact h1
  · exact h2

theorem contsRight_four_iff (s : State) :
    ContsRight s 4 ↔ IsContByte s.inByte[1] ∧ IsContByte s.inByte[2] ∧ IsContByte s.inByte[3] := by
  refine ⟨fun h => ⟨h 1 (by omega) le_rfl (by omega), h 2 (by omega) (by omega) (by omega),
    h 3 (by omega) (by omega) (by omega)⟩, ?_⟩
  rintro ⟨h1, h2, h3⟩ k - hLow hHigh
  interval_cases k
  · exact h1
  · exact h2
  · exact h3

/-- The lead bytes, with the byte after them, of the overlong sequences (R68, R69, R70). -/
abbrev OverlongLead (b0 b1 : Byte) : Prop :=
  b0.toNat = 0xC0 ∨ b0.toNat = 0xC1 ∨ (b0.toNat = 0xE0 ∧ b1.toNat < 0xA0) ∨ (b0.toNat = 0xF0 ∧ b1.toNat < 0x90)

/-- Lane `n` holds a stray continuation byte (R60). -/
abbrev StrayLane (s : State) (n : Nat) : Prop := ∀ h : n < 5, Stray s s.inLen n s.inByte[n]

theorem strayLane_iff (s : State) {n : Nat} (h : n < 5) : StrayLane s n ↔ Stray s s.inLen n s.inByte[n] :=
  forall_prop_of_true h

/-! ### The result of a window -/

/-- The result on a window whose lead byte declares `n` bytes, `n` at least 2: steps 4 to 8 of R45, each check a
range (tied to the classes by `dec2_eq_multiResult`, `dec3_eq_multiResult` and `dec4_eq_multiResult`). -/
def multiResult (s : State) (n : Nat) : DecodeResult :=
  let cp := assembleSeq s.inByte[0] (s.conts n)
  if s.inLen.toNat < n then .raise .invalidLength
  else if ¬ ContsRight s n then .raise .invalidContinuationByte
  else if OverlongLead s.inByte[0] s.inByte[1] then .raise .overlong
  else if StrayLane s n then .raise .invalidLength
  else if IsSurrogateValue cp.toNat then .raise .surrogateHalf
  else if 0x10FFFF < cp.toNat then .raise .tooLarge
  else .ok cp (BitVec.ofNat 8 n)

/-- The result on any window (R45; tied to a step by `step_eq_drive_windowResult`). -/
def windowResult (s : State) : DecodeResult :=
  if s.inLen = 0 then .raise .emptyInput
  else match leadClass s.inByte[0] with
    | none => .raise .invalidLeadByte
    | some n => if n = 1 then .ok (assemble1 s.inByte[0]) 1 else multiResult s n

theorem windowResult_of_inLen_eq_zero {s : State} (h : s.inLen = 0) : windowResult s = .raise .emptyInput := if_pos h

theorem windowResult_of_leadClass_eq_none {s : State} (hLen : s.inLen ≠ 0) (h : leadClass s.inByte[0] = none) :
    windowResult s = .raise .invalidLeadByte := by rw [windowResult, if_neg hLen, h]

theorem windowResult_of_leadClass_eq_one {s : State} (hLen : s.inLen ≠ 0) (h : leadClass s.inByte[0] = some 1) :
    windowResult s = .ok (assemble1 s.inByte[0]) 1 := by rw [windowResult, if_neg hLen, h]; rfl

theorem windowResult_of_leadClass {s : State} {n : Nat} (hLen : s.inLen ≠ 0) (h : leadClass s.inByte[0] = some n)
    (hMulti : 2 ≤ n) : windowResult s = multiResult s n := by
  simp only [windowResult, if_neg hLen, h]
  rw [if_neg (by omega)]

/-! ### Lead bytes by declared length (R34, R57) -/

section
variable {c : Byte}

theorem leadClass_eq_one_iff : leadClass c = some 1 ↔ c.toNat < 0x80 := by
  obtain ⟨-, h, -⟩ := patternTestsMatchTheirRanges c
  exact h

theorem leadClass_eq_two_iff : leadClass c = some 2 ↔ InRange 0xC0 0xDF c := by
  obtain ⟨-, -, h, -⟩ := patternTestsMatchTheirRanges c
  exact h

theorem leadClass_eq_three_iff : leadClass c = some 3 ↔ InRange 0xE0 0xEF c := by
  obtain ⟨-, -, -, h, -⟩ := patternTestsMatchTheirRanges c
  exact h

theorem leadClass_eq_four_iff : leadClass c = some 4 ↔ InRange 0xF0 0xF7 c := by
  obtain ⟨-, -, -, -, h, -⟩ := patternTestsMatchTheirRanges c
  exact h

theorem leadClass_eq_none_iff : leadClass c = none ↔ IsContByte c ∨ 0xF8 ≤ c.toNat := by
  obtain ⟨-, -, -, -, -, h⟩ := patternTestsMatchTheirRanges c
  exact h

/-- A lead byte declares 1 to 4 bytes. -/
theorem leadClass_bounds {n : Nat} (h : leadClass c = some n) : 1 ≤ n ∧ n ≤ 4 := by
  rw [leadClass_eq_ranges] at h
  split_ifs at h <;> cases h <;> omega

end

/-! ### Each class evaluates its window -/

/-- R68: a two-byte value below 0x80 has the lead byte 0xC0 or 0xC1. -/
theorem value2_lt_iff_overlongLead {b0 : Byte} (b1 : Byte) (h : InRange 0xC0 0xDF b0) :
    value2 (b0.extractLsb' 0 5) b1 < 0x80 ↔ OverlongLead b0 b1 := by
  rw [value2, BitVec.extractLsb'_toNat, Nat.shiftRight_zero]
  omega

theorem dec2_eq_multiResult {s : State} (h : leadClass s.inByte[0] = some 2) :
    dec2 s.cfgStrictTrailing s.inLen (s.inByte[0].extractLsb' 0 5) s.tail = multiResult s 2 := by
  have hLead := leadClass_eq_two_iff.mp h
  have hMax : value2 (s.inByte[0].extractLsb' 0 5) s.inByte[1] ≤ 0x7FF := by
    rw [value2, BitVec.extractLsb'_toNat, Nat.shiftRight_zero]
    omega
  simp only [dec2_eq, multiResult, State.tail, contsRight_two_iff, conts_two, assembleSeq_two, assemble2_toNat,
    value2_lt_iff_overlongLead _ hLead, strayLane_iff s (show 2 < 5 by omega)]
  rw [if_neg (c := IsSurrogateValue _) (by omega), if_neg (c := 0x10FFFF < _) (by omega)]
  rfl

theorem dec3_eq_multiResult {s : State} (h : leadClass s.inByte[0] = some 3) :
    dec3 hardware s.cfgStrictTrailing s.inLen (s.inByte[0].extractLsb' 0 4) s.tail = multiResult s 3 := by
  have hLead := leadClass_eq_three_iff.mp h
  have hOverlong : (s.inByte[0].extractLsb' 0 4).toNat = 0 ∧ s.inByte[1].toNat < 0xA0 ↔
      OverlongLead s.inByte[0] s.inByte[1] := by
    rw [BitVec.extractLsb'_toNat, Nat.shiftRight_zero]
    omega
  have hMax : value3 (s.inByte[0].extractLsb' 0 4) s.inByte[1] s.inByte[2] ≤ 0xFFFF := by
    rw [value3, BitVec.extractLsb'_toNat, Nat.shiftRight_zero]
    omega
  simp only [dec3_eq, multiResult, State.tail, contsRight_three_iff, conts_three, assembleSeq_three, assemble3_toNat,
    hOverlong, strayLane_iff s (show 3 < 5 by omega)]
  rw [if_neg (c := 0x10FFFF < _) (by omega)]
  rfl

theorem dec4_eq_multiResult {s : State} (h : leadClass s.inByte[0] = some 4) :
    dec4 hardware s.cfgStrictTrailing s.inLen (s.inByte[0].extractLsb' 0 3) s.tail = multiResult s 4 := by
  have hLead := leadClass_eq_four_iff.mp h
  have hOverlong : (s.inByte[0].extractLsb' 0 3).toNat = 0 ∧ s.inByte[1].toNat < 0x90 ↔
      OverlongLead s.inByte[0] s.inByte[1] := by
    rw [BitVec.extractLsb'_toNat, Nat.shiftRight_zero]
    omega
  simp only [dec4_eq_checks, multiResult, State.tail, contsRight_four_iff, conts_four, assembleSeq_four,
    assemble4_toNat, hOverlong, strayLane_iff s (show 4 < 5 by omega)]
  rfl

/-- R45: the class on the pins evaluates the window. -/
theorem outcome_decodeReq_request (s : State) :
    outcome hardware s.cfgStrictTrailing (decodeReq s.request) = windowResult s := by
  by_cases hLen : s.inLen = 0
  · rw [decodeReq_request_of_inLen_eq_zero hLen, windowResult_of_inLen_eq_zero hLen]
    rfl
  have hReq : reqLen s.request ≠ 0 := by rwa [reqLen_request]
  cases hClass : leadClass s.inByte[0] with
  | none =>
    rw [windowResult_of_leadClass_eq_none hLen hClass]
    rcases leadClass_eq_none_iff.mp hClass with hCont | hHigh
    · rw [decodeReq_eq_badleadCont hReq (by rwa [reqByte_zero_request])]
      rfl
    · rw [decodeReq_eq_badleadHigh hReq (by rwa [reqByte_zero_request])]
      rfl
  | some n =>
    obtain ⟨hLow, hHigh⟩ := leadClass_bounds hClass
    interval_cases n
    · have hLead := leadClass_eq_one_iff.mp hClass
      have hDec1 := decodeReq_eq_dec1 hReq (by rw [reqByte_zero_request]; omega)
      have hLeadByte := (leadByte_decodeReq s.request).trans (reqByte_zero_request s)
      rw [hDec1] at hLeadByte
      rw [windowResult_of_leadClass_eq_one hLen hClass, hDec1]
      exact congrArg (fun b => DecodeResult.ok (assemble1 b) 1) hLeadByte
    · rw [windowResult_of_leadClass hLen hClass le_rfl, ← dec2_eq_multiResult hClass,
        decodeReq_eq_dec2 hReq (by rw [reqByte_zero_request]; exact leadClass_eq_two_iff.mp hClass)]
      simp [outcome]
    · rw [windowResult_of_leadClass hLen hClass (by omega), ← dec3_eq_multiResult hClass,
        decodeReq_eq_dec3 hReq (by rw [reqByte_zero_request]; exact leadClass_eq_three_iff.mp hClass)]
      simp [outcome]
    · rw [windowResult_of_leadClass hLen hClass (by omega), ← dec4_eq_multiResult hClass,
        decodeReq_eq_dec4 hReq (by rw [reqByte_zero_request]; exact leadClass_eq_four_iff.mp hClass)]
      simp [outcome]

theorem windowResult_legal (s : State) : (windowResult s).Legal :=
  outcome_decodeReq_request s ▸ outcome_legal _ _ _

/-- All that a step can do, in ranges: it drives the result of the window. -/
theorem step_eq_drive_windowResult (s : State) : step s = .next (s.drive (windowResult s)) := by
  rw [step_eq_drive_outcome, outcome_decodeReq_request]

end Sys2Proof.Machine
end

section
/-! ### What an outcome depends on (spec/41_byte_pattern_validator.md R62, spec/10_state.md R19) -/

namespace Sys2Proof.Machine

theorem multiResult_of_inLen_lt {s : State} {n : Nat} (h : s.inLen.toNat < n) :
    multiResult s n = .raise .invalidLength := if_pos h

/-- R62, for a multi-byte lead byte: the sequence's own bytes and, under strict-trailing mode, whether the next one is a
continuation byte. -/
theorem multiResult_congr {s s' : State} {n : Nat} (hLow : 2 ≤ n) (hHigh : n ≤ 4)
    (hPresent : n ≤ s.inLen.toNat ↔ n ≤ s'.inLen.toNat)
    (hLanes : n ≤ s.inLen.toNat → ∀ (k : Nat) (_ : k < 5), k < n → s.inByte[k] = s'.inByte[k])
    (hStray : n ≤ s.inLen.toNat → (StrayLane s n ↔ StrayLane s' n)) : multiResult s n = multiResult s' n := by
  by_cases hLen : n ≤ s.inLen.toNat
  · have hLanes := hLanes hLen
    have hZero := hLanes 0 (by omega) (by omega)
    have hOne := hLanes 1 (by omega) (by omega)
    have hRight : ContsRight s n ↔ ContsRight s' n :=
      forall_congr' fun k => forall_congr' fun hk => imp_congr_right fun _ => forall_congr' fun hkn => by
        rw [hLanes k hk hkn]
    have hConts : s.conts n = s'.conts n := by
      interval_cases n
      · rw [conts_two, conts_two, hOne]
      · rw [conts_three, conts_three, hOne, hLanes 2 (by omega) (by omega)]
      · rw [conts_four, conts_four, hOne, hLanes 2 (by omega) (by omega), hLanes 3 (by omega) (by omega)]
    have hAbsent : ¬ s.inLen.toNat < n ∧ ¬ s'.inLen.toNat < n := by omega
    simp only [multiResult, if_neg hAbsent.1, if_neg hAbsent.2, hRight, hConts, hStray hLen, hZero, hOne]
  · rw [multiResult_of_inLen_lt (by omega), multiResult_of_inLen_lt (by omega)]

theorem windowResult_eq_of_agree {s s' : State} (h : AgreeOnDependences s s') : windowResult s = windowResult s' := by
  obtain ⟨hMode, ⟨hZero, hZero'⟩ | ⟨hLen, hLen', hLead, hAgree⟩⟩ := h
  · rw [windowResult_of_inLen_eq_zero hZero, windowResult_of_inLen_eq_zero hZero']
  cases hClass : leadClass s.inByte[0] with
  | none =>
    rw [windowResult_of_leadClass_eq_none hLen hClass, windowResult_of_leadClass_eq_none hLen' (hLead ▸ hClass)]
  | some n =>
    obtain ⟨hLow, hHigh⟩ := leadClass_bounds hClass
    by_cases hOne : n = 1
    · subst hOne
      rw [windowResult_of_leadClass_eq_one hLen hClass, windowResult_of_leadClass_eq_one hLen' (hLead ▸ hClass),
        hLead]
    have hMulti : 2 ≤ n := by omega
    obtain ⟨hPresent, hLanes, hNext⟩ := hAgree n hClass hMulti
    rw [windowResult_of_leadClass hLen hClass hMulti, windowResult_of_leadClass hLen' (hLead ▸ hClass) hMulti]
    refine multiResult_congr hMulti hHigh hPresent (fun hPresent k hk hkn => ?_) fun _ => ?_
    · rcases Nat.eq_zero_or_pos k with rfl | hPos
      · exact hLead
      · exact hLanes hPresent k hk hPos hkn
    · rw [strayLane_iff s (by omega), strayLane_iff s' (by omega), Stray, Stray, ← hMode]
      refine and_congr_right fun hStrict => ?_
      obtain ⟨hNextPresent, hNextCont⟩ := hNext hStrict
      rw [← hNextPresent]
      exact and_congr_right fun hPresent => hNextCont hPresent (by omega)

/-- Settles O30: a step drives the result of the window, which the bound determines. -/
theorem dependenceBound : Obligations.DependenceBound := by
  intro s s' hAgree
  refine ⟨_, _, step_eq_drive_windowResult s, step_eq_drive_windowResult s', ?_⟩
  rw [windowResult_eq_of_agree hAgree]
  exact ⟨rfl, rfl, rfl, rfl⟩

/-- Settles O29: the present lanes contain everything that the dependence bound names. -/
theorem outputsDependOnPresentBytesOnly : Obligations.OutputsDependOnPresentBytesOnly := by
  intro s s' hLen hMode hLanes
  refine dependenceBound s s' ⟨hMode, ?_⟩
  by_cases hZero : s.inLen = 0
  · exact .inl ⟨hZero, hLen ▸ hZero⟩
  have hPos : 0 < s.inLen.toNat := Nat.pos_of_ne_zero fun h => hZero (BitVec.eq_of_toNat_eq h)
  refine .inr ⟨hZero, hLen ▸ hZero, hLanes 0 (by omega) hPos, fun n _ _ => ?_⟩
  rw [← hLen]
  refine ⟨Iff.rfl, fun hPresent k hk _ hkn => hLanes k hk (by omega), fun _ => ⟨Iff.rfl, fun hPresent hn => ?_⟩⟩
  rw [hLanes n hn (by omega)]

/-- Settles O31: every length from 5 up says that a sequence and the byte after it are present. -/
theorem lengthsFiveToSevenAreAlike : Obligations.LengthsFiveToSevenAreAlike := by
  intro s len hFive hFive'
  refine dependenceBound s _ ⟨rfl, .inr ⟨fun h => ?_, fun h => ?_, rfl, fun n hClass _ => ?_⟩⟩
  · rw [h] at hFive
    exact absurd hFive (by decide)
  · rw [show len = 0 from h] at hFive'
    exact absurd hFive' (by decide)
  · obtain ⟨-, hHigh⟩ := leadClass_bounds hClass
    exact ⟨iff_of_true (by omega) (by dsimp; omega), fun _ _ _ _ _ => rfl,
      fun _ => ⟨iff_of_true (by omega) (by dsimp; omega), fun _ _ => Iff.rfl⟩⟩

/-- Settles O34: with the mode off, the bound names the bytes of the sequence only. -/
theorem modeOffReturnsTheValidatedPrefix : Obligations.ModeOffReturnsTheValidatedPrefix := by
  intro s n hOff hClass hPresent
  obtain ⟨hLow, hHigh⟩ := leadClass_bounds hClass
  have hLen : (BitVec.ofNat 3 n).toNat = n := Nat.mod_eq_of_lt (by omega)
  refine dependenceBound s _ ⟨rfl, .inr ⟨fun h => ?_, fun h => ?_, rfl, fun m hClass' _ => ?_⟩⟩
  · rw [h] at hPresent
    exact absurd (hLow.trans hPresent) (by decide)
  · rw [show BitVec.ofNat 3 n = 0 from h] at hLen
    exact absurd (hLen.trans_ge hLow) (by decide)
  · obtain rfl : n = m := Option.some.inj (hClass.symm.trans hClass')
    exact ⟨iff_of_true hPresent hLen.ge, fun _ _ _ _ _ => rfl, fun hOn => absurd hOn (by simp [hOff])⟩

end Sys2Proof.Machine
end

section
/-! ### The causes of the errors of a sequence (spec/60_exceptions.md R77, R78, R80, R81) -/

namespace Sys2Proof.Machine

/-- A check answers its own code where it fails, and leaves every other to the rest of the evaluation. -/
theorem err_ite_raise_eq_iff (c : Prop) [Decidable c] (e : ErrorKind) (d : DecodeResult) (k : ErrCode) :
    (if c then .raise e else d : DecodeResult).err = k ↔ c ∧ errCode e = k ∨ ¬ c ∧ d.err = k := by
  split_ifs with h <;> simp [h]

/-- The sequence of `n` bytes comes to the checks of its value: all its bytes are present and right, it is not overlong
and no stray byte follows (R45, steps 4 to 6, in the order of decision D6). -/
structure ReachesRangeChecks (s : State) (n : Nat) : Prop where
  present : n ≤ s.inLen.toNat
  conts : ContsRight s n
  notOverlong : ¬ OverlongLead s.inByte[0] s.inByte[1]
  notStray : ¬ StrayLane s n

theorem reachesRangeChecks_iff (s : State) (n : Nat) :
    ReachesRangeChecks s n ↔ ¬ s.inLen.toNat < n ∧ ¬ ¬ ContsRight s n ∧
      ¬ OverlongLead s.inByte[0] s.inByte[1] ∧ ¬ StrayLane s n := by
  rw [Nat.not_lt, not_not]
  exact ⟨fun ⟨h1, h2, h3, h4⟩ => ⟨h1, h2, h3, h4⟩, fun ⟨h1, h2, h3, h4⟩ => ⟨h1, h2, h3, h4⟩⟩

/-! A code of a sequence of `n` bytes: the checks in front of its own pass, and its own is the first that fails. -/

section
variable (s : State) (n : Nat)

theorem multiResult_err_eq_three_iff :
    (multiResult s n).err = 3 ↔ s.inLen.toNat < n ∨
      ContsRight s n ∧ ¬ OverlongLead s.inByte[0] s.inByte[1] ∧ StrayLane s n := by
  simp only [multiResult, err_ite_raise_eq_iff, errCode, err_ok, BitVec.reduceEq, and_true, and_false, false_or,
    or_false]
  rw [Nat.not_lt, not_not]
  exact or_congr_right' fun hPresent => and_iff_right (Nat.le_of_not_lt hPresent)

theorem multiResult_err_eq_four_iff : (multiResult s n).err = 4 ↔ n ≤ s.inLen.toNat ∧ ¬ ContsRight s n := by
  simp only [multiResult, err_ite_raise_eq_iff, errCode, err_ok, BitVec.reduceEq, and_true, and_false, false_or,
    or_false, Nat.not_lt]

theorem multiResult_err_eq_six_iff :
    (multiResult s n).err = 6 ↔
      ReachesRangeChecks s n ∧ IsSurrogateValue (assembleSeq s.inByte[0] (s.conts n)).toNat := by
  simp only [multiResult, err_ite_raise_eq_iff, errCode, err_ok, BitVec.reduceEq, and_true, and_false, false_or,
    or_false, reachesRangeChecks_iff, and_assoc]

theorem multiResult_err_eq_seven_iff :
    (multiResult s n).err = 7 ↔
      ReachesRangeChecks s n ∧ ¬ IsSurrogateValue (assembleSeq s.inByte[0] (s.conts n)).toNat ∧
        0x10FFFF < (assembleSeq s.inByte[0] (s.conts n)).toNat := by
  simp only [multiResult, err_ite_raise_eq_iff, errCode, err_ok, BitVec.reduceEq, and_true, and_false, false_or,
    or_false, reachesRangeChecks_iff, and_assoc]

end

/-- A code from 3 up is the code of a multi-byte sequence: the other classes raise 1 or 2, or succeed. -/
theorem windowResult_err_eq_iff (s : State) {k : ErrCode} (hk : k ≠ 0 ∧ k ≠ 1 ∧ k ≠ 2) :
    (windowResult s).err = k ↔
      s.inLen ≠ 0 ∧ ∃ n, leadClass s.inByte[0] = some n ∧ 2 ≤ n ∧ (multiResult s n).err = k := by
  obtain ⟨h0, h1, h2⟩ := hk
  by_cases hLen : s.inLen = 0
  · rw [windowResult_of_inLen_eq_zero hLen]
    exact iff_of_false h1.symm fun h => h.1 hLen
  cases hClass : leadClass s.inByte[0] with
  | none =>
    rw [windowResult_of_leadClass_eq_none hLen hClass]
    exact iff_of_false h2.symm (by simp)
  | some n =>
    by_cases hMulti : 2 ≤ n
    · rw [windowResult_of_leadClass hLen hClass hMulti]
      refine ⟨fun h => ⟨hLen, n, rfl, hMulti, h⟩, ?_⟩
      rintro ⟨-, m, hSame, -, h⟩
      rwa [Option.some.inj hSame]
    · obtain rfl : n = 1 := by have := leadClass_bounds hClass; omega
      rw [windowResult_of_leadClass_eq_one hLen hClass]
      exact iff_of_false h0.symm (by simp)

theorem inLen_ne_zero_of_pos {s : State} (h : 1 ≤ s.inLen.toNat) : s.inLen ≠ 0 := by
  intro hZero
  rw [hZero] at h
  exact absurd h (by decide)

/-- A failed check records its code and nothing else (R54). -/
theorem outputs_zero_of_err_ne_zero (s : State) (h : (windowResult s).err ≠ 0) :
    (s.drive (windowResult s)).outCp = 0 ∧ (s.drive (windowResult s)).outLen = 0 ∧
      (s.drive (windowResult s)).outOk = false :=
  outputs_zero_of_outErr_ne_zero (outputsLegal_drive s (windowResult_legal s)) h

/-- The class of a lead byte that declares more than one byte (R34). -/
theorem decodeReq_request_of_leadClass {s : State} {n : Nat} (hLen : s.inLen ≠ 0)
    (h : leadClass s.inByte[0] = some n) (hMulti : 2 ≤ n) :
    (∃ len p u, decodeReq s.request = .dec2 len p u) ∨ (∃ len p u, decodeReq s.request = .dec3 len p u) ∨
      ∃ len p u, decodeReq s.request = .dec4 len p u := by
  have hReq : reqLen s.request ≠ 0 := by rwa [reqLen_request]
  rw [← reqByte_zero_request] at h
  obtain ⟨-, hHigh⟩ := leadClass_bounds h
  interval_cases n
  · exact .inl ⟨_, _, _, decodeReq_eq_dec2 hReq (leadClass_eq_two_iff.mp h)⟩
  · exact .inr (.inl ⟨_, _, _, decodeReq_eq_dec3 hReq (leadClass_eq_three_iff.mp h)⟩)
  · exact .inr (.inr ⟨_, _, _, decodeReq_eq_dec4 hReq (leadClass_eq_four_iff.mp h)⟩)

/-- Settles O23: the continuation check is the first that a complete sequence can fail. -/
theorem continuationErrorHasItsCause : Obligations.ContinuationErrorHasItsCause := by
  intro s
  have hErr := windowResult_err_eq_iff s (k := 4) (by decide)
  refine ⟨_, step_eq_drive_windowResult s, hErr.trans ?_, fun h => ?_, fun h => ?_⟩
  · constructor
    · rintro ⟨-, n, hClass, hMulti, hFour⟩
      obtain ⟨hPresent, hConts⟩ := (multiResult_err_eq_four_iff s n).mp hFour
      exact ⟨n, hClass, hMulti, hPresent, by simpa only [ContsRight, not_forall, exists_prop] using hConts⟩
    · rintro ⟨n, hClass, hMulti, hPresent, k, hk, hLow, hHigh, hBad⟩
      exact ⟨inLen_ne_zero_of_pos (by omega), n, hClass, hMulti,
        (multiResult_err_eq_four_iff s n).mpr ⟨hPresent, fun hConts => hBad (hConts k hk hLow hHigh)⟩⟩
  · obtain ⟨hLen, n, hClass, hMulti, -⟩ := hErr.mp h
    exact decodeReq_request_of_leadClass hLen hClass hMulti
  · exact outputs_zero_of_err_ne_zero s fun h0 => absurd (h.symm.trans h0) (by decide)

/-- Settles O24: code 3 is raised by the presence check, and by the trailing check once the checks before it pass. -/
theorem lengthErrorHasItsCauses : Obligations.LengthErrorHasItsCauses := by
  intro s
  refine ⟨_, step_eq_drive_windowResult s, (windowResult_err_eq_iff s (k := 3) (by decide)).trans ?_⟩
  exact and_congr_right fun _ => exists_congr fun n => and_congr_right fun _ => and_congr_right fun _ =>
    multiResult_err_eq_three_iff s n

/-! ### The values of a window (spec/42_codepoint_assembler.md R65 to R67) -/

theorem value_two (s : State) :
    (assembleSeq s.inByte[0] (s.conts 2)).toNat = s.inByte[0].toNat % 32 * 64 + s.inByte[1].toNat % 64 := by
  rw [conts_two, assembleSeq_two_toNat]

theorem value_three (s : State) :
    (assembleSeq s.inByte[0] (s.conts 3)).toNat =
      s.inByte[0].toNat % 16 * 4096 + s.inByte[1].toNat % 64 * 64 + s.inByte[2].toNat % 64 := by
  rw [conts_three, assembleSeq_three_toNat]

theorem value_four (s : State) :
    (assembleSeq s.inByte[0] (s.conts 4)).toNat =
      s.inByte[0].toNat % 8 * 262144 + s.inByte[1].toNat % 64 * 4096 + s.inByte[2].toNat % 64 * 64 +
        s.inByte[3].toNat % 64 := by
  rw [conts_four, assembleSeq_four_toNat]

/-- R71, R74: only three bytes make a surrogate, and of them only those that begin with ED A0 to ED BF. -/
theorem surrogate_iff {s : State} {n : Nat} (hClass : leadClass s.inByte[0] = some n) (hMulti : 2 ≤ n)
    (hConts : ContsRight s n) (hOverlong : ¬ OverlongLead s.inByte[0] s.inByte[1]) :
    IsSurrogateValue (assembleSeq s.inByte[0] (s.conts n)).toNat ↔
      n = 3 ∧ InRange 0xED 0xED s.inByte[0] ∧ InRange 0xA0 0xBF s.inByte[1] := by
  obtain ⟨-, hHigh⟩ := leadClass_bounds hClass
  interval_cases n
  · rw [leadClass_eq_two_iff] at hClass
    rw [value_two]
    omega
  · rw [leadClass_eq_three_iff] at hClass
    rw [contsRight_three_iff] at hConts
    rw [value_three]
    omega
  · rw [leadClass_eq_four_iff] at hClass
    rw [contsRight_four_iff] at hConts
    rw [value_four]
    omega

/-- R72, R74: only four bytes make a value that is too large, and of them only those from F4 90 up. -/
theorem tooLarge_iff {s : State} {n : Nat} (hClass : leadClass s.inByte[0] = some n) (hMulti : 2 ≤ n)
    (hConts : ContsRight s n) :
    0x10FFFF < (assembleSeq s.inByte[0] (s.conts n)).toNat ↔
      n = 4 ∧ ((InRange 0xF4 0xF4 s.inByte[0] ∧ InRange 0x90 0xBF s.inByte[1]) ∨
        (InRange 0xF5 0xF7 s.inByte[0] ∧ IsContByte s.inByte[1])) := by
  obtain ⟨-, hHigh⟩ := leadClass_bounds hClass
  interval_cases n
  · rw [value_two]
    omega
  · rw [value_three]
    omega
  · rw [leadClass_eq_four_iff] at hClass
    rw [contsRight_four_iff] at hConts
    rw [value_four]
    omega

/-- Settles O25: among the sequences that reach the checks of their value, the surrogates have three bytes and the
values that are too large have four, in the ranges of their first two bytes. -/
theorem rangeErrorsHaveTheirCauses : Obligations.RangeErrorsHaveTheirCauses := by
  intro s
  refine ⟨_, step_eq_drive_windowResult s, (windowResult_err_eq_iff s (k := 6) (by decide)).trans ⟨?_, ?_⟩,
    (windowResult_err_eq_iff s (k := 7) (by decide)).trans ⟨?_, ?_⟩⟩
  · rintro ⟨-, n, hClass, hMulti, hSix⟩
    obtain ⟨hReach, hValue⟩ := (multiResult_err_eq_six_iff s n).mp hSix
    obtain ⟨rfl, hLead, hNext⟩ := (surrogate_iff hClass hMulti hReach.conts hReach.notOverlong).mp hValue
    exact ⟨hReach.present, hLead, hNext, hReach.conts 2 (by omega) (by omega) (by omega),
      (strayLane_iff s (by omega)).not.mp hReach.notStray⟩
  · rintro ⟨hPresent, hLead, hNext, hTwo, hStray⟩
    have hClass : leadClass s.inByte[0] = some 3 := leadClass_eq_three_iff.mpr (by omega)
    have hReach : ReachesRangeChecks s 3 :=
      ⟨hPresent, (contsRight_three_iff s).mpr (by omega), by omega, (strayLane_iff s (by omega)).not.mpr hStray⟩
    exact ⟨inLen_ne_zero_of_pos (by omega), 3, hClass, by omega, (multiResult_err_eq_six_iff s 3).mpr
      ⟨hReach, (surrogate_iff hClass (by omega) hReach.conts hReach.notOverlong).mpr ⟨rfl, hLead, hNext⟩⟩⟩
  · rintro ⟨-, n, hClass, hMulti, hSeven⟩
    obtain ⟨hReach, -, hValue⟩ := (multiResult_err_eq_seven_iff s n).mp hSeven
    obtain ⟨rfl, hLead⟩ := (tooLarge_iff hClass hMulti hReach.conts).mp hValue
    exact ⟨hReach.present, hLead, hReach.conts 2 (by omega) (by omega) (by omega),
      hReach.conts 3 (by omega) (by omega) (by omega), (strayLane_iff s (by omega)).not.mp hReach.notStray⟩
  · rintro ⟨hPresent, hLead, hTwo, hThree, hStray⟩
    have hClass : leadClass s.inByte[0] = some 4 := leadClass_eq_four_iff.mpr (by omega)
    have hReach : ReachesRangeChecks s 4 :=
      ⟨hPresent, (contsRight_four_iff s).mpr (by omega), by omega, (strayLane_iff s (by omega)).not.mpr hStray⟩
    have hValue := (tooLarge_iff hClass (by omega) hReach.conts).mpr ⟨rfl, hLead⟩
    exact ⟨inLen_ne_zero_of_pos (by omega), 4, hClass, by omega,
      (multiResult_err_eq_seven_iff s 4).mpr ⟨hReach, by omega, hValue⟩⟩

end Sys2Proof.Machine
end

section
/-! ### The accepted set (spec/30_encoding.md R42, R44) -/

namespace Sys2Proof.Machine

/-- A multi-byte sequence that passes every check (R45). -/
structure PassesChecks (s : State) (n : Nat) : Prop extends ReachesRangeChecks s n where
  notSurrogate : ¬ IsSurrogateValue (assembleSeq s.inByte[0] (s.conts n)).toNat
  notTooLarge : ¬ 0x10FFFF < (assembleSeq s.inByte[0] (s.conts n)).toNat

theorem multiResult_of_passesChecks {s : State} {n : Nat} (h : PassesChecks s n) :
    multiResult s n = .ok (assembleSeq s.inByte[0] (s.conts n)) (BitVec.ofNat 8 n) := by
  rw [multiResult, if_neg h.present.not_gt, if_neg (not_not.mpr h.conts), if_neg h.notOverlong, if_neg h.notStray,
    if_neg h.notSurrogate, if_neg h.notTooLarge]

theorem passesChecks_of_multiResult_eq_ok {s : State} {n : Nat} {cp : CodePoint} {m : OutLen}
    (h : multiResult s n = .ok cp m) : PassesChecks s n := by
  rw [multiResult] at h
  split_ifs at h with hAbsent hConts hOverlong hStray hSurrogate hTooLarge
  exact ⟨⟨Nat.le_of_not_lt hAbsent, hConts, hOverlong, hStray⟩, hSurrogate, hTooLarge⟩

/-- The window holds a sequence of `n` bytes that is accepted, by the checks of R45. -/
structure Accepts (s : State) (n : Nat) : Prop where
  leadClass_eq : leadClass s.inByte[0] = some n
  present : n ≤ s.inLen.toNat
  passes : 2 ≤ n → PassesChecks s n

/-- R64: a one-byte value has no continuation part, and its payload mask changes nothing. -/
theorem assembleSeq_one {b0 : Byte} (h : b0.toNat < 0x80) : assembleSeq b0 [] = assemble1 b0 := by
  have hMask : b0 &&& leadMask 1 = b0 := by
    apply BitVec.eq_of_toNat_eq
    have hPayload : (b0 &&& leadMask 1).toNat = b0.toNat % 2 ^ 7 := and_lowMask_toNat b0 (k := 7) (by omega)
    omega
  simp [assembleSeq, assemble1, hMask]

theorem windowResult_of_accepts {s : State} {n : Nat} (h : Accepts s n) :
    windowResult s = .ok (assembleSeq s.inByte[0] (s.conts n)) (BitVec.ofNat 8 n) := by
  obtain ⟨hClass, hPresent, hPasses⟩ := h
  obtain ⟨hLow, -⟩ := leadClass_bounds hClass
  have hLen : s.inLen ≠ 0 := inLen_ne_zero_of_pos (hLow.trans hPresent)
  by_cases hMulti : 2 ≤ n
  · rw [windowResult_of_leadClass hLen hClass hMulti, multiResult_of_passesChecks (hPasses hMulti)]
  · obtain rfl : n = 1 := by omega
    rw [windowResult_of_leadClass_eq_one hLen hClass, ← assembleSeq_one (leadClass_eq_one_iff.mp hClass)]
    rfl

theorem exists_accepts_of_windowResult_eq_ok {s : State} {cp : CodePoint} {m : OutLen}
    (h : windowResult s = .ok cp m) : ∃ n, Accepts s n := by
  by_cases hLen : s.inLen = 0
  · simp [windowResult_of_inLen_eq_zero hLen] at h
  cases hClass : leadClass s.inByte[0] with
  | none => simp [windowResult_of_leadClass_eq_none hLen hClass] at h
  | some n =>
    by_cases hMulti : 2 ≤ n
    · rw [windowResult_of_leadClass hLen hClass hMulti] at h
      have hPasses := passesChecks_of_multiResult_eq_ok h
      exact ⟨n, hClass, hPasses.present, fun _ => hPasses⟩
    · have hPos : s.inLen.toNat ≠ 0 := fun h0 => hLen (BitVec.eq_of_toNat_eq h0)
      exact ⟨n, hClass, by omega, fun h2 => absurd h2 hMulti⟩

@[simp] theorem isOk_ok (cp : CodePoint) (n : OutLen) : (DecodeResult.ok cp n).isOk = true := rfl

@[simp] theorem isOk_raise (e : ErrorKind) : (DecodeResult.raise e).isOk = false := by cases e <;> rfl

/-- A window succeeds exactly where it holds an accepted sequence. -/
theorem windowResult_isOk_iff (s : State) : (windowResult s).isOk = true ↔ ∃ n, Accepts s n := by
  constructor
  · intro hOk
    cases hResult : windowResult s with
    | ok cp m => exact exists_accepts_of_windowResult_eq_ok hResult
    | raise e => simp [hResult] at hOk
  · rintro ⟨n, hAccepts⟩
    rw [windowResult_of_accepts hAccepts, isOk_ok]

section
variable (b0 : Byte) (t : Tail)

theorem acceptedRow_one_iff : AcceptedRow 1 b0 t ↔ InRange 0x00 0x7F b0 := by simp [AcceptedRow]

theorem acceptedRow_two_iff : AcceptedRow 2 b0 t ↔ InRange 0xC2 0xDF b0 ∧ InRange 0x80 0xBF t.b1 := by
  simp [AcceptedRow]

/-- R44: with three bytes, all but the overlong E0 80 to E0 9F and the surrogates of ED A0 to ED BF. -/
theorem acceptedRow_three_iff :
    AcceptedRow 3 b0 t ↔ InRange 0xE0 0xEF b0 ∧ (IsContByte t.b1 ∧ IsContByte t.b2) ∧
      ¬ (b0.toNat = 0xE0 ∧ t.b1.toNat < 0xA0) ∧ ¬ (b0.toNat = 0xED ∧ 0xA0 ≤ t.b1.toNat) := by
  simp only [AcceptedRow, Nat.reduceEqDiff, OfNat.ofNat_ne_one, false_and, false_or, or_false, true_and]
  constructor
  · rintro ⟨hTwo, h⟩
    omega
  · rintro ⟨hLead, hConts, hOverlong, hSurrogate⟩
    omega

/-- R44: with four bytes, all but the overlong F0 80 to F0 8F and the values from F4 90 up. -/
theorem acceptedRow_four_iff :
    AcceptedRow 4 b0 t ↔ InRange 0xF0 0xF7 b0 ∧ (IsContByte t.b1 ∧ IsContByte t.b2 ∧ IsContByte t.b3) ∧
      ¬ (b0.toNat = 0xF0 ∧ t.b1.toNat < 0x90) ∧ ¬ (b0.toNat = 0xF4 ∧ 0x90 ≤ t.b1.toNat) ∧ b0.toNat ≤ 0xF4 := by
  simp only [AcceptedRow, Nat.reduceEqDiff, OfNat.ofNat_ne_one, false_and, false_or, true_and]
  constructor
  · rintro ⟨hTwo, hThree, h⟩
    omega
  · rintro ⟨hLead, hConts, hOverlong, hTooLarge⟩
    omega

end

/-- R44 against R42: the rows of the table are the continuation bytes after each lead byte, without the overlong
sequences, the surrogates and the values that are too large. -/
theorem acceptedRow_iff (s : State) (n : Nat) :
    AcceptedRow n s.inByte[0] s.tail ↔ leadClass s.inByte[0] = some n ∧
      (2 ≤ n → ContsRight s n ∧ ¬ OverlongLead s.inByte[0] s.inByte[1] ∧
        ¬ (n = 3 ∧ InRange 0xED 0xED s.inByte[0] ∧ InRange 0xA0 0xBF s.inByte[1]) ∧
        ¬ (n = 4 ∧ ((InRange 0xF4 0xF4 s.inByte[0] ∧ InRange 0x90 0xBF s.inByte[1]) ∨
          (InRange 0xF5 0xF7 s.inByte[0] ∧ IsContByte s.inByte[1])))) := by
  by_cases hBounds : 1 ≤ n ∧ n ≤ 4
  · obtain ⟨hLow, hHigh⟩ := hBounds
    interval_cases n
    · rw [acceptedRow_one_iff, leadClass_eq_one_iff]
      omega
    · rw [acceptedRow_two_iff, leadClass_eq_two_iff, contsRight_two_iff, State.tail]
      simp only [le_refl, Nat.reduceEqDiff, forall_const, false_and, not_false_eq_true, and_true]
      omega
    · rw [acceptedRow_three_iff, leadClass_eq_three_iff, contsRight_three_iff, State.tail]
      simp only [Nat.reduceLeDiff, Nat.reduceEqDiff, forall_const, false_and, true_and, not_false_eq_true, and_true]
      omega
    · rw [acceptedRow_four_iff, leadClass_eq_four_iff, contsRight_four_iff, State.tail]
      simp only [Nat.reduceLeDiff, Nat.reduceEqDiff, forall_const, false_and, true_and, not_false_eq_true]
      omega
  · refine iff_of_false (fun h => ?_) fun h => hBounds (leadClass_bounds h.1)
    rw [AcceptedRow] at h
    omega

/-- R44, R60: the trailing condition of the table is that no stray byte follows. -/
theorem trailing_iff {s : State} {n : Nat} (hHigh : n ≤ 4) (hPresent : n ≤ s.inLen.toNat) :
    (s.cfgStrictTrailing = true → s.inLen.toNat = n ∨ ∀ _ : n < 5, ¬ IsContByte s.inByte[n]) ↔ ¬ StrayLane s n := by
  have hFive : n < 5 := by omega
  rw [strayLane_iff s hFive, forall_prop_of_true hFive, Stray]
  refine (imp_congr_right fun _ => ?_).trans not_and.symm
  omega

/-- The table of R44 and the checks of R45 accept the same windows. -/
theorem acceptedWindow_iff_accepts (s : State) (n : Nat) : AcceptedWindow s n ↔ Accepts s n := by
  constructor
  · rintro ⟨hPresent, hRow, hTrailing⟩
    obtain ⟨hClass, hMulti⟩ := (acceptedRow_iff s n).mp hRow
    refine ⟨hClass, hPresent, fun hn => ?_⟩
    obtain ⟨hConts, hOverlong, hSurrogate, hTooLarge⟩ := hMulti hn
    have hStray := (trailing_iff (leadClass_bounds hClass).2 hPresent).mp (hTrailing hn)
    exact ⟨⟨hPresent, hConts, hOverlong, hStray⟩, (surrogate_iff hClass hn hConts hOverlong).not.mpr hSurrogate,
      (tooLarge_iff hClass hn hConts).not.mpr hTooLarge⟩
  · rintro ⟨hClass, hPresent, hPasses⟩
    refine ⟨hPresent, (acceptedRow_iff s n).mpr ⟨hClass, fun hn => ?_⟩, fun hn => ?_⟩
    · obtain ⟨⟨-, hConts, hOverlong, -⟩, hSurrogate, hTooLarge⟩ := hPasses hn
      exact ⟨hConts, hOverlong, (surrogate_iff hClass hn hConts hOverlong).not.mp hSurrogate,
        (tooLarge_iff hClass hn hConts).not.mp hTooLarge⟩
    · exact (trailing_iff (leadClass_bounds hClass).2 hPresent).mpr (hPasses hn).notStray

/-- Settles O27: a step drives the result of the window, which succeeds exactly where the checks accept a sequence, and
the checks accept what the table lists. -/
theorem acceptedSetIsTheTable : Obligations.AcceptedSetIsTheTable := by
  intro s
  refine ⟨_, step_eq_drive_windowResult s, ?_, fun n hWindow => ?_⟩
  · rw [drive_outOk, windowResult_isOk_iff]
    exact exists_congr fun n => (acceptedWindow_iff_accepts s n).symm
  · have hAccepts := (acceptedWindow_iff_accepts s n).mp hWindow
    obtain ⟨-, hHigh⟩ := leadClass_bounds hAccepts.leadClass_eq
    rw [drive_outLen, windowResult_of_accepts hAccepts]
    exact Nat.mod_eq_of_lt (by omega)

/-- Settles O26: no row of the table begins with one of these bytes or pairs. -/
theorem someLeadsNeverSucceed : Obligations.SomeLeadsNeverSucceed := by
  intro s hLead
  obtain ⟨t, hStep, hOk, -⟩ := acceptedSetIsTheTable s
  refine ⟨t, hStep, Bool.eq_false_iff.mpr fun h => ?_⟩
  obtain ⟨n, -, hRow, -⟩ := hOk.mp h
  simp only [AcceptedRow, State.tail] at hRow
  simp only [← BitVec.toNat_inj, BitVec.ofNat_eq_ofNat, BitVec.toNat_ofNat] at hLead
  omega

end Sys2Proof.Machine
end

section
/-! ### The response word (spec/30_encoding.md R33) -/

namespace Sys2Proof.Machine

theorem response_toNat (s : State) :
    s.response.toNat = s.outErr.toNat * 2 ^ 40 + s.outLen.toNat * 2 ^ 32 + s.outCp.toNat := by
  rw [State.response, toNat_append_eq, toNat_append_eq]
  omega

/-- Settles O28: legal outputs hold no code on success and nothing but the code on failure. -/
theorem responseWordPacksTheOutcome : Obligations.ResponseWordPacksTheOutcome := by
  intro s
  obtain ⟨t, hStep, hLegal⟩ := outputsAreLegalAfterEveryStep s
  obtain ⟨hOkIff, -, -⟩ := id hLegal
  refine ⟨t, hStep, fun hOk => ?_, fun hOk => ?_⟩
  · rw [response_toNat, hOkIff.mp hOk]
    simp
  · have hErr : t.outErr ≠ 0 := fun h => by simp [hOkIff.mpr h] at hOk
    obtain ⟨hCp, hLen, -⟩ := outputs_zero_of_outErr_ne_zero hLegal hErr
    refine ⟨?_, hErr⟩
    rw [response_toNat, hCp, hLen]
    simp

end Sys2Proof.Machine
end

section
/-! ### The document's `decode` (spec/40_decoder.md R45) and its parameters (spec/92_eei_decisions.md D6, D8) -/

namespace Sys2Proof.Machine

/-- Steps 4 to 8 of R45 on a sequence whose lead byte declares `n` bytes, `n` at least 2 (tied to `decodeBytes` by
`decodeBytes_of_leadClass`). -/
def sequenceResult (P : Params) (strict : Bool) (n : Nat) (b0 : Byte) (rest : List Byte) : DecodeResult :=
  let conts := rest.take (n - 1)
  let cp := assembleSeq b0 conts
  if rest.length + 1 < n then .raise .invalidLength
  else if !conts.all isCont then .raise .invalidContinuationByte
  else if conts.head?.any (fun b1 => overlong n b0 b1 cp) then .raise .overlong
  else if P.trailBeforeRange && strayAfter strict n rest then .raise .invalidLength
  else if surrogate cp then .raise .surrogateHalf
  else if tooLarge cp then .raise .tooLarge
  else if !P.trailBeforeRange && strayAfter strict n rest then .raise .invalidLength
  else .ok cp (BitVec.ofNat 8 n)

section
variable (P : Params) (strict : Bool) {b0 : Byte} (rest : List Byte)

@[simp] theorem decodeBytes_nil : decodeBytes P strict [] = .raise .emptyInput := rfl

theorem decodeBytes_of_leadClass_eq_none (h : leadClass b0 = none) :
    decodeBytes P strict (b0 :: rest) = .raise .invalidLeadByte := by simp only [decodeBytes, h]

theorem decodeBytes_of_leadClass_eq_one (h : leadClass b0 = some 1) :
    decodeBytes P strict (b0 :: rest) =
      if P.trailAscii && strayAfter strict 1 rest then .raise .invalidLength else .ok (assemble1 b0) 1 := by
  simp only [decodeBytes, h, if_true, Nat.sub_self, List.take_zero, assembleSeq_one (leadClass_eq_one_iff.mp h)]

theorem decodeBytes_of_leadClass {n : Nat} (h : leadClass b0 = some n) (hMulti : 2 ≤ n) :
    decodeBytes P strict (b0 :: rest) = sequenceResult P strict n b0 rest := by
  simp only [decodeBytes, h]
  exact if_neg (by omega)

end

/-- How decision D6 may change a result: in the kind of an error only. -/
def SameButForTheKind (d d' : DecodeResult) : Prop :=
  d.isOk = d'.isOk ∧ (d.isOk = true → d = d') ∧
    (d ≠ d' → d = .raise .invalidLength ∧ (d' = .raise .surrogateHalf ∨ d' = .raise .tooLarge))

@[simp] theorem sameButForTheKind_refl (d : DecodeResult) : SameButForTheKind d d :=
  ⟨rfl, fun _ => rfl, fun h => absurd rfl h⟩

/-- A check that both evaluations make first leaves the rest of them to compare. -/
theorem sameButForTheKind_ite {c : Prop} [Decidable c] {d e e' : DecodeResult} (h : ¬ c → SameButForTheKind e e') :
    SameButForTheKind (if c then d else e) (if c then d else e') := by
  split_ifs with hCheck
  · exact sameButForTheKind_refl d
  · exact h hCheck

theorem sameButForTheKind_sequenceResult (a strict : Bool) (n : Nat) (b0 : Byte) (rest : List Byte) :
    SameButForTheKind (sequenceResult ⟨a, true⟩ strict n b0 rest) (sequenceResult ⟨a, false⟩ strict n b0 rest) := by
  refine sameButForTheKind_ite fun _ => sameButForTheKind_ite fun _ => sameButForTheKind_ite fun _ => ?_
  cases strayAfter strict n rest with
  | false => simp
  | true =>
    simp only [Bool.and_self, Bool.not_true, Bool.and_true, Bool.not_false, Bool.false_eq_true, if_true, if_false]
    split_ifs <;> simp [SameButForTheKind]

/-- Settles O35: the trailing check is the same check at both places; at the later one a surrogate or a value that is
too large is reported before it. -/
theorem trailOrderChangesOnlyTheKind : Obligations.TrailOrderChangesOnlyTheKind := by
  intro a strict bs
  change SameButForTheKind _ _
  cases bs with
  | nil => simp
  | cons b0 rest =>
    cases hClass : leadClass b0 with
    | none => simp [decodeBytes_of_leadClass_eq_none, hClass]
    | some n =>
      by_cases hMulti : 2 ≤ n
      · simp only [decodeBytes_of_leadClass _ _ _ hClass hMulti, sameButForTheKind_sequenceResult]
      · obtain rfl : n = 1 := by have := leadClass_bounds hClass; omega
        simp [decodeBytes_of_leadClass_eq_one, hClass]

/-- R60 after one byte: the rest begins with a continuation byte. -/
theorem strayAfter_one_eq_true_iff (strict : Bool) (rest : List Byte) :
    strayAfter strict 1 rest = true ↔ strict = true ∧ ∃ b1 rest', rest = b1 :: rest' ∧ IsContByte b1 := by
  rw [strayAfter, Bool.and_eq_true, Nat.sub_self]
  refine and_congr_right fun _ => ?_
  cases rest with
  | nil => simp
  | cons b1 rest' => simpa using isCont_iff b1

/-- Settles O36: the parameter stands in the one-byte case only, in front of the stray check. -/
theorem trailAsciiChangesOnlyOneByteSequences : Obligations.TrailAsciiChangesOnlyOneByteSequences := by
  intro r strict bs hDiffer
  cases bs with
  | nil => simp at hDiffer
  | cons b0 rest =>
    cases hClass : leadClass b0 with
    | none => simp [decodeBytes_of_leadClass_eq_none, hClass] at hDiffer
    | some n =>
      by_cases hMulti : 2 ≤ n
      · simp [decodeBytes_of_leadClass _ _ _ hClass hMulti, sequenceResult] at hDiffer
      · obtain rfl : n = 1 := by have := leadClass_bounds hClass; omega
        simp only [decodeBytes_of_leadClass_eq_one _ _ _ hClass, Bool.false_and, Bool.true_and, Bool.false_eq_true,
          if_false] at hDiffer ⊢
        have hStray : strayAfter strict 1 rest = true := by
          by_contra hNone
          exact hDiffer (if_neg hNone).symm
        obtain ⟨hStrict, b1, rest', rfl, hCont⟩ := (strayAfter_one_eq_true_iff strict rest).mp hStray
        exact ⟨hStrict, if_pos hStray, b0, b1, rest', rfl, leadClass_eq_one_iff.mp hClass, hCont,
          congrArg (DecodeResult.ok · 1) (BitVec.ofNat_toNat 32 b0).symm⟩

end Sys2Proof.Machine
end

section
/-! ### A step is the document's `decode` (spec/20_memory.md R24, spec/40_decoder.md R45) -/

namespace Sys2Proof.Machine

/-- The window shows the first bytes of `bs`, all of them where `bs` has at most five: what R12 and R24 fix of a window,
whatever `in_len` says beyond five. -/
structure Shows (s : State) (bs : List Byte) : Prop where
  length : min bs.length 5 = min s.inLen.toNat 5
  lanes : ∀ (i : Nat) (_ : i < 5) (_ : i < bs.length), s.inByte[i] = bs[i]

theorem shows_of_presents {s : State} {bs : List Byte} (h : Presents s bs) : Shows s bs := by
  obtain ⟨hLen, hLanes⟩ := h
  exact ⟨by omega, hLanes⟩

theorem shows_shownBytes (s : State) : Shows s s.shownBytes := by
  refine ⟨by simp [State.shownBytes], fun i hi hShown => ?_⟩
  simp [State.shownBytes]

section
variable {s : State} {b0 : Byte} {rest : List Byte} {n : Nat}

/-- The bytes of the sequence after its lead byte are the lanes that the class reads. -/
theorem take_rest_eq_conts (h : Shows s (b0 :: rest)) (hHigh : n ≤ 4) (hPresent : n ≤ rest.length + 1) :
    rest.take (n - 1) = s.conts n := by
  apply List.ext_getElem
  · simp [State.conts]
    omega
  · intro i hi _
    have hi : i < n - 1 ∧ i < rest.length := by simpa using hi
    have hLane := h.lanes (i + 1) (by omega) (by simp; omega)
    simpa [State.conts] using hLane.symm

theorem all_isCont_conts (s : State) (hLow : 2 ≤ n) (hHigh : n ≤ 4) :
    (s.conts n).all isCont = decide (ContsRight s n) := by
  interval_cases n
  · simp only [conts_two, contsRight_two_iff, List.all_cons, List.all_nil, isCont_eq_decide, Bool.and_true]
  · simp only [conts_three, contsRight_three_iff, List.all_cons, List.all_nil, isCont_eq_decide, Bool.and_true,
      Bool.decide_and]
  · simp only [conts_four, contsRight_four_iff, List.all_cons, List.all_nil, isCont_eq_decide, Bool.and_true,
      Bool.decide_and]

theorem head?_conts (s : State) (hMulti : 2 ≤ n) : (s.conts n).head? = some s.inByte[1] := by
  rw [State.conts, List.head?_take, if_neg (by omega), inByte_toList]
  rfl

/-- R68, R69, R70: the overlong check of a sequence looks at its first two bytes. -/
theorem overlong_conts_iff (hClass : leadClass s.inByte[0] = some n) (hMulti : 2 ≤ n) :
    overlong n s.inByte[0] s.inByte[1] (assembleSeq s.inByte[0] (s.conts n)) = true ↔
      OverlongLead s.inByte[0] s.inByte[1] := by
  obtain ⟨-, hHigh⟩ := leadClass_bounds hClass
  interval_cases n
  · rw [leadClass_eq_two_iff] at hClass
    rw [overlong_two_eq_decide, value_two, decide_eq_true_eq]
    omega
  · rw [leadClass_eq_three_iff] at hClass
    simp only [overlong, Bool.and_eq_true, beq_iff_eq, decide_eq_true_eq, BitVec.lt_def, ← BitVec.toNat_inj,
      BitVec.ofNat_eq_ofNat, BitVec.toNat_ofNat]
    omega
  · rw [leadClass_eq_four_iff] at hClass
    simp only [overlong, Bool.and_eq_true, beq_iff_eq, decide_eq_true_eq, BitVec.lt_def, ← BitVec.toNat_inj,
      BitVec.ofNat_eq_ofNat, BitVec.toNat_ofNat]
    omega

/-- R60: the byte after the sequence is lane `n`, present in the sequence exactly when it is present in the window. -/
theorem strayAfter_iff_strayLane (h : Shows s (b0 :: rest)) (hLow : 1 ≤ n) (hHigh : n ≤ 4) :
    strayAfter s.cfgStrictTrailing n rest = true ↔ StrayLane s n := by
  have hLen : min (rest.length + 1) 5 = min s.inLen.toNat 5 := h.length
  have hNth : rest[n - 1]? = (b0 :: rest)[n]? := by rw [List.getElem?_cons, if_neg (by omega)]
  rw [strayLane_iff s (by omega), strayAfter, hNth, Bool.and_eq_true]
  refine and_congr_right fun _ => ?_
  by_cases hNext : n + 1 ≤ s.inLen.toNat
  · rw [List.getElem?_eq_getElem (by simp; omega), ← h.lanes n (by omega) (by simp; omega), Option.any_some, isCont_iff,
      and_iff_right hNext]
  · rw [List.getElem?_eq_none (by simp; omega), Option.any_none]
    exact iff_of_false Bool.false_ne_true fun hStray => hNext hStray.1

/-- R24, R45: the evaluation on a sequence reads nothing but what the window shows of it. -/
theorem sequenceResult_eq_multiResult (h : Shows s (b0 :: rest)) (hClass : leadClass b0 = some n) (hMulti : 2 ≤ n) :
    sequenceResult hardware s.cfgStrictTrailing n b0 rest = multiResult s n := by
  obtain ⟨-, hHigh⟩ := leadClass_bounds hClass
  have hLen : min (rest.length + 1) 5 = min s.inLen.toNat 5 := h.length
  obtain rfl : s.inByte[0] = b0 := h.lanes 0 (by omega) (by simp)
  by_cases hPresent : rest.length + 1 < n
  · rw [multiResult_of_inLen_lt (by omega)]
    exact if_pos hPresent
  · have hAbsent : ¬ s.inLen.toNat < n := by omega
    simp only [sequenceResult, multiResult, if_neg hPresent, if_neg hAbsent, hardware,
      take_rest_eq_conts h hHigh (Nat.le_of_not_lt hPresent), all_isCont_conts s hMulti hHigh, head?_conts s hMulti,
      Option.any_some, overlong_conts_iff hClass hMulti, strayAfter_iff_strayLane h (by omega) hHigh,
      surrogate_eq_decide, tooLarge_eq_decide, Bool.true_and, Bool.not_true, Bool.false_and, Bool.not_eq_true',
      decide_eq_true_eq, decide_eq_false_iff_not, Bool.false_eq_true, if_false]

end

theorem decodeBytes_eq_windowResult {s : State} {bs : List Byte} (h : Shows s bs) :
    decodeBytes hardware s.cfgStrictTrailing bs = windowResult s := by
  cases bs with
  | nil =>
    have hLen : min 0 5 = min s.inLen.toNat 5 := h.length
    rw [decodeBytes_nil, windowResult_of_inLen_eq_zero (BitVec.eq_of_toNat_eq (by simp; omega))]
  | cons b0 rest =>
    have hLength : min (rest.length + 1) 5 = min s.inLen.toNat 5 := h.length
    have hLen : s.inLen ≠ 0 := inLen_ne_zero_of_pos (by omega)
    obtain rfl : s.inByte[0] = b0 := h.lanes 0 (by omega) (by simp)
    cases hClass : leadClass s.inByte[0] with
    | none => rw [decodeBytes_of_leadClass_eq_none _ _ _ hClass, windowResult_of_leadClass_eq_none hLen hClass]
    | some n =>
      by_cases hMulti : 2 ≤ n
      · rw [decodeBytes_of_leadClass _ _ _ hClass hMulti, windowResult_of_leadClass hLen hClass hMulti,
          sequenceResult_eq_multiResult h hClass hMulti]
      · obtain rfl : n = 1 := by have := leadClass_bounds hClass; omega
        rw [decodeBytes_of_leadClass_eq_one _ _ _ hClass, windowResult_of_leadClass_eq_one hLen hClass]
        rfl

theorem step_of_shows {s : State} {bs : List Byte} (h : Shows s bs) :
    step s = .next (s.drive (decodeBytes hardware s.cfgStrictTrailing bs)) := by
  rw [step_eq_drive_windowResult, decodeBytes_eq_windowResult h]

/-- Settles O37: a window that presents a sequence shows it, and a step and `decode` evaluate what is shown. -/
theorem windowDecodeEqualsSequenceDecode : Obligations.WindowDecodeEqualsSequenceDecode :=
  fun _ _ hPresents => step_of_shows (shows_of_presents hPresents)

end Sys2Proof.Machine
end

section
/-! ### The invariant (spec/10_state.md R13, R20) -/

namespace Sys2Proof.Machine

/-- R19, R20: the result of a window is that of the bytes it shows. -/
theorem settled_drive_windowResult (s : State) : Settled (s.drive (windowResult s)) := by
  rw [Settled, drive_cfgStrictTrailing, drive_shownBytes, decodeBytes_eq_windowResult (shows_shownBytes s), drive_drive]

/-- Driving the result of the window gives the invariant to every state whose mode is 1. -/
theorem inv_drive_windowResult {s : State} (hMode : s.cfgStrictTrailing = true) : Inv (s.drive (windowResult s)) :=
  ⟨hMode, outputsLegal_drive s (windowResult_legal s), settled_drive_windowResult s⟩

/-- Settles O41: a step leaves the mode, and drives the result of the window. -/
theorem stepKeepsTheInvariant : Obligations.StepKeepsTheInvariant := by
  rintro s t ⟨hMode, -, -⟩ hStep
  rw [step_eq_drive_windowResult] at hStep
  obtain rfl : s.drive (windowResult s) = t := Host.Outcome.next.inj hStep
  exact inv_drive_windowResult hMode

/-- Settles O42: the outputs at reset are those that driving the result of its window gives. -/
theorem resetHasTheInvariant : Obligations.ResetHasTheInvariant := by
  have hReset : State.reset.drive (windowResult State.reset) = State.reset := rfl
  rw [Obligations.ResetHasTheInvariant, ← hReset]
  exact inv_drive_windowResult rfl

end Sys2Proof.Machine
end

section
/-! ### A success is undone by the minimal-length encoder (spec/40_decoder.md R55) -/

namespace Sys2Proof.Machine

/-! ### The encoder by the length of its answer -/

section
variable {cp : CodePoint}

theorem encodeMinimal_one (h : cp.toNat < 0x80) : encodeMinimal cp = [BitVec.ofNat 8 cp.toNat] := if_pos h

theorem encodeMinimal_two (hLow : 0x80 ≤ cp.toNat) (hHigh : cp.toNat < 0x800) :
    encodeMinimal cp = [BitVec.ofNat 8 (0xC0 + cp.toNat / 64), contByte cp.toNat] := by
  rw [encodeMinimal, if_neg (by omega), if_pos hHigh]

theorem encodeMinimal_three (hLow : 0x800 ≤ cp.toNat) (hHigh : cp.toNat < 0x10000) :
    encodeMinimal cp =
      [BitVec.ofNat 8 (0xE0 + cp.toNat / 4096), contByte (cp.toNat / 64), contByte cp.toNat] := by
  rw [encodeMinimal, if_neg (by omega), if_neg (by omega), if_pos hHigh]

theorem encodeMinimal_four (hLow : 0x10000 ≤ cp.toNat) :
    encodeMinimal cp =
      [BitVec.ofNat 8 (0xF0 + cp.toNat / 262144), contByte (cp.toNat / 4096), contByte (cp.toNat / 64),
        contByte cp.toNat] := by
  rw [encodeMinimal, if_neg (by omega), if_neg (by omega), if_neg (by omega)]

end

@[simp] theorem contByte_toNat (v : Nat) : (contByte v).toNat = 0x80 + v % 64 := by
  rw [contByte, BitVec.toNat_ofNat]
  omega

theorem ofNat_eq_byte {b : Byte} {v : Nat} (h : v = b.toNat) : BitVec.ofNat 8 v = b := by
  rw [h, BitVec.ofNat_toNat, BitVec.setWidth_eq]

/-- R36: a continuation byte is the one with its payload. -/
theorem contByte_eq_byte {b : Byte} {v : Nat} (hCont : IsContByte b) (h : v % 64 = b.toNat % 64) : contByte v = b := by
  apply ofNat_eq_byte
  omega

/-- R55: the value of an accepted sequence is in the range whose encoding has its length, and each byte of the encoding
is the sequence's own. -/
theorem encodeMinimal_of_accepts {s : State} {n : Nat} (h : Accepts s n) :
    encodeMinimal (assembleSeq s.inByte[0] (s.conts n)) = s.inByte.toList.take n := by
  obtain ⟨hClass, -, hPasses⟩ := h
  obtain ⟨hLow, hHigh⟩ := leadClass_bounds hClass
  rw [inByte_toList]
  interval_cases n
  · have hLead := leadClass_eq_one_iff.mp hClass
    have hValue : (assembleSeq s.inByte[0] (s.conts 1)).toNat = s.inByte[0].toNat := by
      rw [show s.conts 1 = [] from rfl, assembleSeq_one hLead, assemble1_toNat]
    rw [encodeMinimal_one (by omega), ofNat_eq_byte hValue]
    rfl
  · obtain ⟨⟨-, hConts, hOverlong, -⟩, -, -⟩ := hPasses le_rfl
    rw [leadClass_eq_two_iff] at hClass
    rw [contsRight_two_iff] at hConts
    have hValue := value_two s
    rw [encodeMinimal_two (by omega) (by omega), ofNat_eq_byte (b := s.inByte[0]) (by omega),
      contByte_eq_byte hConts (by omega)]
    rfl
  · obtain ⟨⟨-, hConts, hOverlong, -⟩, -, -⟩ := hPasses (by omega)
    rw [leadClass_eq_three_iff] at hClass
    obtain ⟨hOne, hTwo⟩ := (contsRight_three_iff s).mp hConts
    have hValue := value_three s
    rw [encodeMinimal_three (by omega) (by omega), ofNat_eq_byte (b := s.inByte[0]) (by omega),
      contByte_eq_byte hOne (by omega), contByte_eq_byte hTwo (by omega)]
    rfl
  · obtain ⟨⟨-, hConts, hOverlong, -⟩, -, -⟩ := hPasses (by omega)
    rw [leadClass_eq_four_iff] at hClass
    obtain ⟨hOne, hTwo, hThree⟩ := (contsRight_four_iff s).mp hConts
    have hValue := value_four s
    rw [encodeMinimal_four (by omega), ofNat_eq_byte (b := s.inByte[0]) (by omega),
      contByte_eq_byte hOne (by omega), contByte_eq_byte hTwo (by omega), contByte_eq_byte hThree (by omega)]
    rfl

/-- Settles O38: a success is the value and the length of an accepted sequence, all of whose bytes are present. -/
theorem successReencodesToConsumedBytes : Obligations.SuccessReencodesToConsumedBytes := by
  intro s
  refine ⟨_, step_eq_drive_windowResult s, fun hOk => ?_⟩
  obtain ⟨n, hAccepts⟩ := (windowResult_isOk_iff s).mp hOk
  obtain ⟨-, hHigh⟩ := leadClass_bounds hAccepts.leadClass_eq
  have hLen : (BitVec.ofNat 8 n).toNat = n := Nat.mod_eq_of_lt (by omega)
  rw [drive_outLen, drive_outCp, windowResult_of_accepts hAccepts]
  simp only [DecodeResult.len, DecodeResult.cp, hLen]
  exact ⟨hAccepts.present, encodeMinimal_of_accepts hAccepts⟩

end Sys2Proof.Machine
end

section
/-! ### A valid code point decodes from its minimal-length encoding (spec/90_conflicts.md C3) -/

namespace Sys2Proof.Machine

/-- R60: what follows the sequence in the window is the rest, whose first byte is no continuation byte. -/
theorem not_strayLane_of_presents {s : State} {bs rest : List Byte} (hPresents : Presents s (bs ++ rest))
    (hRest : ∀ b ∈ rest.head?, ¬ IsContByte b) (hHigh : bs.length ≤ 4) : ¬ StrayLane s bs.length := by
  rw [strayLane_iff s (by omega)]
  rintro ⟨-, hNext, hCont⟩
  obtain ⟨hLen, hLanes⟩ := hPresents
  rw [List.length_append] at hLen
  cases rest with
  | nil =>
    rw [List.length_nil] at hLen
    omega
  | cons b rest =>
    rw [hLanes bs.length (by omega) (by simp), List.getElem_append_right le_rfl] at hCont
    exact hRest b (by simp) (by simpa using hCont)

/-- A window whose bytes pass the checks before those of the value, and have a valid value, decodes to it. -/
theorem windowResult_of_value {s : State} {n : Nat} {cp : CodePoint} (hClass : leadClass s.inByte[0] = some n)
    (hReach : 2 ≤ n → ReachesRangeChecks s n) (hPresent : n ≤ s.inLen.toNat)
    (hValue : (assembleSeq s.inByte[0] (s.conts n)).toNat = cp.toNat) (hMax : cp.toNat ≤ 0x10FFFF)
    (hSurrogate : ¬ IsSurrogateValue cp.toNat) : windowResult s = .ok cp (BitVec.ofNat 8 n) := by
  have hAccepts : Accepts s n := ⟨hClass, hPresent, fun hMulti =>
    ⟨hReach hMulti, by rwa [hValue], by rw [hValue]; omega⟩⟩
  rw [windowResult_of_accepts hAccepts, BitVec.eq_of_toNat_eq hValue]

/-- The lanes at the front of the window are the bytes at the front of the sequence. -/
theorem lane_of_presents {s : State} {bs rest : List Byte} (h : Presents s (bs ++ rest)) (k : Nat) (hk : k < 5)
    (hBytes : k < bs.length) : s.inByte[k] = bs[k] := by
  obtain ⟨-, hLanes⟩ := h
  rw [hLanes k hk (by rw [List.length_append]; omega), List.getElem_append_left hBytes]

theorem length_le_inLen_of_presents {s : State} {bs rest : List Byte} (h : Presents s (bs ++ rest))
    (hHigh : bs.length ≤ 4) : bs.length ≤ s.inLen.toNat := by
  obtain ⟨hLen, -⟩ := h
  rw [List.length_append] at hLen
  omega

section
variable {s : State} {cp : CodePoint} {rest : List Byte} (hSurrogate : ¬ IsSurrogateValue cp.toNat)
  (hPresents : Presents s (encodeMinimal cp ++ rest))
include hSurrogate hPresents

theorem windowResult_of_presents_one (hHigh : cp.toNat < 0x80) : windowResult s = .ok cp 1 := by
  rw [encodeMinimal_one hHigh] at hPresents
  have hPresent := length_le_inLen_of_presents hPresents (by simp)
  have hLane : s.inByte[0].toNat = cp.toNat := by
    rw [lane_of_presents hPresents 0 (by omega) (by simp)]
    exact Nat.mod_eq_of_lt (by omega)
  have hClass : leadClass s.inByte[0] = some 1 := leadClass_eq_one_iff.mpr (by omega)
  refine windowResult_of_value hClass (fun h => absurd h (by decide)) hPresent ?_ (by omega) hSurrogate
  rw [show s.conts 1 = [] from rfl, assembleSeq_one (by omega), assemble1_toNat, hLane]

variable (hRest : ∀ b ∈ rest.head?, ¬ IsContByte b)
include hRest

theorem windowResult_of_presents_two (hLow : 0x80 ≤ cp.toNat) (hHigh : cp.toNat < 0x800) :
    windowResult s = .ok cp 2 := by
  rw [encodeMinimal_two hLow hHigh] at hPresents
  have hPresent := length_le_inLen_of_presents hPresents (by simp)
  have hStray := not_strayLane_of_presents hPresents hRest (by simp)
  have h0 : s.inByte[0].toNat = 0xC0 + cp.toNat / 64 := by
    rw [lane_of_presents hPresents 0 (by omega) (by simp)]
    exact Nat.mod_eq_of_lt (by omega)
  have h1 : s.inByte[1].toNat = 0x80 + cp.toNat % 64 := by
    rw [lane_of_presents hPresents 1 (by omega) (by simp)]
    exact contByte_toNat _
  have hReach : ReachesRangeChecks s 2 := ⟨hPresent, (contsRight_two_iff s).mpr (by omega), by omega, hStray⟩
  refine windowResult_of_value (leadClass_eq_two_iff.mpr (by omega)) (fun _ => hReach) hPresent ?_ (by omega) hSurrogate
  rw [value_two]
  omega

theorem windowResult_of_presents_three (hLow : 0x800 ≤ cp.toNat) (hHigh : cp.toNat < 0x10000) :
    windowResult s = .ok cp 3 := by
  rw [encodeMinimal_three hLow hHigh] at hPresents
  have hPresent := length_le_inLen_of_presents hPresents (by simp)
  have hStray := not_strayLane_of_presents hPresents hRest (by simp)
  have h0 : s.inByte[0].toNat = 0xE0 + cp.toNat / 4096 := by
    rw [lane_of_presents hPresents 0 (by omega) (by simp)]
    exact Nat.mod_eq_of_lt (by omega)
  have h1 : s.inByte[1].toNat = 0x80 + cp.toNat / 64 % 64 := by
    rw [lane_of_presents hPresents 1 (by omega) (by simp)]
    exact contByte_toNat _
  have h2 : s.inByte[2].toNat = 0x80 + cp.toNat % 64 := by
    rw [lane_of_presents hPresents 2 (by omega) (by simp)]
    exact contByte_toNat _
  have hReach : ReachesRangeChecks s 3 := ⟨hPresent, (contsRight_three_iff s).mpr (by omega), by omega, hStray⟩
  refine windowResult_of_value (leadClass_eq_three_iff.mpr (by omega)) (fun _ => hReach) hPresent ?_ (by omega)
    hSurrogate
  rw [value_three]
  omega

theorem windowResult_of_presents_four (hLow : 0x10000 ≤ cp.toNat) (hMax : cp.toNat ≤ 0x10FFFF) :
    windowResult s = .ok cp 4 := by
  rw [encodeMinimal_four hLow] at hPresents
  have hPresent := length_le_inLen_of_presents hPresents (by simp)
  have hStray := not_strayLane_of_presents hPresents hRest (by simp)
  have h0 : s.inByte[0].toNat = 0xF0 + cp.toNat / 262144 := by
    rw [lane_of_presents hPresents 0 (by omega) (by simp)]
    exact Nat.mod_eq_of_lt (by omega)
  have h1 : s.inByte[1].toNat = 0x80 + cp.toNat / 4096 % 64 := by
    rw [lane_of_presents hPresents 1 (by omega) (by simp)]
    exact contByte_toNat _
  have h2 : s.inByte[2].toNat = 0x80 + cp.toNat / 64 % 64 := by
    rw [lane_of_presents hPresents 2 (by omega) (by simp)]
    exact contByte_toNat _
  have h3 : s.inByte[3].toNat = 0x80 + cp.toNat % 64 := by
    rw [lane_of_presents hPresents 3 (by omega) (by simp)]
    exact contByte_toNat _
  have hReach : ReachesRangeChecks s 4 := ⟨hPresent, (contsRight_four_iff s).mpr (by omega), by omega, hStray⟩
  refine windowResult_of_value (leadClass_eq_four_iff.mpr (by omega)) (fun _ => hReach) hPresent ?_ hMax hSurrogate
  rw [value_four]
  omega

end

/-- Settles O39: in each of the four ranges, the encoding's bytes pass every check and assemble the code point. -/
theorem everyValidCodePointDecodes : Obligations.EveryValidCodePointDecodes := by
  intro cp rest s hMax hSurrogate hRest hPresents
  rw [step_eq_drive_windowResult]
  rcases Nat.lt_or_ge cp.toNat 0x80 with hOne | hOne
  · rw [windowResult_of_presents_one hSurrogate hPresents hOne, drive_ok, encodeMinimal_one hOne]
    rfl
  rcases Nat.lt_or_ge cp.toNat 0x800 with hTwo | hTwo
  · rw [windowResult_of_presents_two hSurrogate hPresents hRest hOne hTwo, drive_ok, encodeMinimal_two hOne hTwo]
    rfl
  rcases Nat.lt_or_ge cp.toNat 0x10000 with hThree | hThree
  · rw [windowResult_of_presents_three hSurrogate hPresents hRest hTwo hThree, drive_ok,
      encodeMinimal_three hTwo hThree]
    rfl
  · rw [windowResult_of_presents_four hSurrogate hPresents hRest hThree hMax, drive_ok, encodeMinimal_four hThree]
    rfl

end Sys2Proof.Machine
end
